-- ==== Sys2Proof/Word.lean ====
section
/-! DEFINITION. The word types of BCMSEQ and their field names: 00_scope.md R11, 30_encoding.md R59. -/

namespace Sys2Proof

/-- One framebuffer byte (20_memory.md R38). -/
abbrev Byte := BitVec 8

/-- A coordinate or a colour operand: 16 bits (30_encoding.md R51, R53). -/
abbrev Half := BitVec 16

/-- The host command word CMD52 (30_encoding.md R59). -/
abbrev CmdWord := BitVec 52

/-- A value of the six colour lines (10_state.md R26). -/
abbrev Lines := BitVec 6

end Sys2Proof
end

