-- ==== Sys2Proof/Config.lean ====
section
/-! DEFINITION. What an instance of BCMSEQ fixes: the document's constants (00_scope.md R6), the open parameters with
their constraints (R7 to R9), and the one free value (93_implementation_defined.md U12). -/

namespace Sys2Proof

/-- The admitted scan-row counts, 8 and 16; U13 admits no other (00_scope.md R7). -/
inductive RowCount where
  | rows8
  | rows16
  deriving DecidableEq, Repr

/-- `NROWS` as a number (00_scope.md R7). -/
def RowCount.toNat : RowCount → Nat
  | .rows8 => 8
  | .rows16 => 16

/-- The straps and open parameters of one instance (00_scope.md R7, R8, R9; 10_state.md R28). The constraints of R9 are
carried as proofs, so an instance that breaks them (93_implementation_defined.md U7) cannot be built. -/
structure Straps where
  /-- `NROWS` -/
  nrows : RowCount
  /-- `DBUF` -/
  dbuf : Bool
  /-- `BASE_LOOP_TICKS`, B -/
  baseLoopTicks : Nat
  /-- `CALL_OVERHEAD`, C -/
  callOverhead : Nat
  /-- `FIRST_INTERVAL` -/
  firstInterval : Nat
  duration_pos : 1 ≤ baseLoopTicks + callOverhead
  duration_fits : 8 * (baseLoopTicks + 2 * callOverhead) - callOverhead < 2 ^ 16
  first_pos : 1 ≤ firstInterval
  first_fits : firstInterval < 2 ^ 16
  deriving DecidableEq, Repr

/-- `WIDTH`: columns, and bytes per plane of a scan row (00_scope.md R6). -/
def Config.width : Nat := 32

/-- `NPLANES`: bit planes per channel (00_scope.md R6). -/
def Config.nplanes : Nat := 4

/-- The instance `Machine.State.reset` is built with. DESIGN CHOICE (log entry 1), unsafe: the spec fixes none of the five
values; they are those its own vectors use for illustration (95_test_vectors.md). No statement rests on them. -/
def Config.straps : Straps where
  nrows := .rows8
  dbuf := true
  baseLoopTicks := 200
  callOverhead := 60
  firstInterval := 100
  duration_pos := by decide
  duration_fits := by decide
  first_pos := by decide
  first_fits := by decide

/-- What the response port carries while no operation drives it (30_encoding.md R62, 93_implementation_defined.md U12:
any value). A free value, log entry 4: applied to a counter of the state, so each undriven period may show another byte. -/
opaque Config.undrivenRsp : Nat → Byte

end Sys2Proof
end

