-- ==== Sys2Proof/Syntax.lean ====
section
/-! DEFINITION. The operations of BCMSEQ, one constructor per row of spec/opcode_table.json: 30_encoding.md R60. -/

namespace Sys2Proof

/-- The nine operations (30_encoding.md R60). `x` and `y` are read as two's complement (R53), `off` as unsigned. -/
inductive Instr where
  /-- `BEGIN` (43_buffer_control.md R115) -/
  | begin
  /-- `STOP` (43_buffer_control.md R117) -/
  | stop
  /-- `SETPIXEL x, y, c` (41_pixel_writer.md R80) -/
  | setPixel (x y c : Half)
  /-- `SWAPREQ` (43_buffer_control.md R119) -/
  | swapReq
  /-- `RDSTAT` (43_buffer_control.md R120) -/
  | rdStat
  /-- `COPYFWD` (43_buffer_control.md R121) -/
  | copyFwd
  /-- `BUFRD off` (43_buffer_control.md R123) -/
  | bufRd (off : Half)
  /-- `BUFWR off, v` (43_buffer_control.md R124) -/
  | bufWr (off : Half) (v : Byte)
  /-- `TICK`, the timer-expiry event (42_scan_sequencer.md R94) -/
  | tick
  deriving DecidableEq, Repr

end Sys2Proof
end

