-- ==== Sys2Proof/WellFormed.lean ====
section
/-! DEFINITION. The operand constraint the operation table states beyond the field widths, which the types already hold:
the offset of `BUFRD` and `BUFWR` lies in the framebuffer (20_memory.md R50). -/

namespace Sys2Proof

/-- `FBSIZE = 96*NROWS`, the bytes of one framebuffer (00_scope.md R67). -/
def RowCount.fbSize (n : RowCount) : Nat := 96 * n.toNat

/-- The operands of `i` are ones the operation table admits on an instance with `n` scan rows: an offset "must be < FBSIZE"
(30_encoding.md R64, 20_memory.md R50). Such a word is legal but refused when this fails; every other operand value is
admitted (R63). -/
def Instr.wellFormed (n : RowCount) : Instr → Bool
  | .begin => true
  | .stop => true
  | .setPixel _ _ _ => true
  | .swapReq => true
  | .rdStat => true
  | .copyFwd => true
  | .bufRd off => decide (off.toNat < n.fbSize)
  | .bufWr off _ => decide (off.toNat < n.fbSize)
  | .tick => true

end Sys2Proof
end

