-- ==== Sys2Proof/Decode.lean ====
section
/-! DEFINITION. The operation encodings (30_encoding.md R59 to R63): the command word CMD52 and the event EVT1, decoded by the
mask and match rows of R61, and encoded from the same table. -/

namespace Sys2Proof

/-- What selects an operation: a word on the command port or the one-bit event input (30_encoding.md R59). -/
inductive Presented where
  | command (w : CmdWord)
  | event (e : BitVec 1)
  deriving DecidableEq, Repr

/-- Why nothing is selected. -/
inductive Reject where
  /-- `op` is 0x0 or 0x9 to 0xF (30_encoding.md R63) -/
  | reservedOpcode
  /-- a field the operation does not use is not zero (30_encoding.md R61, R63) -/
  | unusedFieldNotZero
  /-- the event input is 0: no timer expiry is pending (30_encoding.md R59) -/
  | noEvent
  deriving DecidableEq, Repr

/-! Fields of CMD52 (30_encoding.md R59). -/

/-- `op = cmd[51:48]` -/
def cmdOp (w : CmdWord) : BitVec 4 := w.extractLsb' 48 4
/-- `x = cmd[47:32]` -/
def cmdX (w : CmdWord) : Half := w.extractLsb' 32 16
/-- `y = cmd[31:16]` -/
def cmdY (w : CmdWord) : Half := w.extractLsb' 16 16
/-- `c = cmd[15:0]` -/
def cmdC (w : CmdWord) : Half := w.extractLsb' 0 16

/-- A command word from its four fields (30_encoding.md R59). -/
def cmdWord (op : BitVec 4) (x y c : Half) : CmdWord := op ++ x ++ y ++ c

/-- One row of the table of 30_encoding.md R61: the word `w` selects it when `w & mask = pattern`; `read` takes the operands
from the fields. -/
structure Row where
  mnemonic : String
  pattern : CmdWord
  mask : CmdWord
  read : CmdWord → Instr

/-- The table of 30_encoding.md R61, in its order. -/
def commandTable : List Row :=
  [ ⟨"BEGIN", 0x1000000000000, 0xFFFFFFFFFFFFF, fun _ => .begin⟩,
    ⟨"STOP", 0x2000000000000, 0xFFFFFFFFFFFFF, fun _ => .stop⟩,
    ⟨"SETPIXEL", 0x3000000000000, 0xF000000000000, fun w => .setPixel (cmdX w) (cmdY w) (cmdC w)⟩,
    ⟨"SWAPREQ", 0x4000000000000, 0xFFFFFFFFFFFFF, fun _ => .swapReq⟩,
    ⟨"RDSTAT", 0x5000000000000, 0xFFFFFFFFFFFFF, fun _ => .rdStat⟩,
    ⟨"COPYFWD", 0x6000000000000, 0xFFFFFFFFFFFFF, fun _ => .copyFwd⟩,
    ⟨"BUFRD", 0x7000000000000, 0xF0000FFFFFFFF, fun w => .bufRd (cmdX w)⟩,
    ⟨"BUFWR", 0x8000000000000, 0xF0000FFFFFF00, fun w => .bufWr (cmdX w) ((cmdC w).extractLsb' 0 8)⟩ ]

/-- "A word `w` selects the row whose `w & mask = match`" (30_encoding.md R61). -/
def Row.selects (r : Row) (w : CmdWord) : Bool := decide (w &&& r.mask = r.pattern)

/-- The name under which a word that matches no row is rejected (30_encoding.md R63). -/
def rejectCommand (w : CmdWord) : Reject :=
  if cmdOp w = 0 ∨ 9 ≤ (cmdOp w).toNat then .reservedOpcode else .unusedFieldNotZero

/-- The operation a command word selects (30_encoding.md R61), or the name it is rejected by (R63). -/
def decodeCommand (w : CmdWord) : Except Reject Instr :=
  match commandTable.find? (fun r => r.selects w) with
  | some r => .ok (r.read w)
  | none => .error (rejectCommand w)

/-- The operation the event input selects: 1 selects `TICK` (30_encoding.md R59). -/
def decodeEvent (e : BitVec 1) : Except Reject Instr :=
  if e = 1 then .ok .tick else .error .noEvent

/-- Decoding of whatever selects an operation. -/
def decode : Presented → Except Reject Instr
  | .command w => decodeCommand w
  | .event e => decodeEvent e

/-- The word or event that selects `i`: op codes of 30_encoding.md R60, operand fields of R61, unused fields zero. -/
def encode : Instr → Presented
  | .begin => .command (cmdWord 1 0 0 0)
  | .stop => .command (cmdWord 2 0 0 0)
  | .setPixel x y c => .command (cmdWord 3 x y c)
  | .swapReq => .command (cmdWord 4 0 0 0)
  | .rdStat => .command (cmdWord 5 0 0 0)
  | .copyFwd => .command (cmdWord 6 0 0 0)
  | .bufRd off => .command (cmdWord 7 off 0 0)
  | .bufWr off v => .command (cmdWord 8 off 0 (v.setWidth 16))
  | .tick => .event 1

/-- What an operation-table row's bits present, `nbits` being the row's width in whole bytes: a row of at most one byte is the
event input EVT1 (its bit 0; its other bits are padding and must be zero), a longer one is the command word CMD52 (52 bits, the
bits above them padding that must be zero). -/
def presentedOfTable (nbits w : Nat) : Option Presented :=
  if nbits ≤ 8 then
    if w < 2 then some (.event (BitVec.ofNat 1 w)) else none
  else
    if w < 2 ^ 52 then some (.command (BitVec.ofNat 52 w)) else none

/-- The operation the decoder reads from an operation-table row's bits. -/
def decodeTableWord (nbits w : Nat) : Option Instr :=
  match presentedOfTable nbits w with
  | none => none
  | some p =>
    match decode p with
    | .ok i => some i
    | .error _ => none

end Sys2Proof
end

