-- ==== Sys2Proof/Machine/State.lean ====
section
/-! DEFINITION. The state of BCMSEQ as plain data (10_state.md R13 to R34), the ways a step can stop, and power-on. -/

namespace Sys2Proof.Machine

/-- A framebuffer's bytes: (offset, byte) pairs, offsets strictly rising, none of them zero; an offset not listed reads 0x00
(log entry 3). The operations are in Sys2Proof/Machine/Memory.lean. -/
abbrev Memory := List Host.Cell

/-- A framebuffer index, 0 or 1 (10_state.md R19, R21). -/
inductive Buf where
  | fb0
  | fb1
  deriving DecidableEq, Repr

/-- An output event (10_state.md R33). -/
inductive Event where
  /-- `BLANK(b)`: output-disable written -/
  | blank (b : Bool)
  /-- `LAT(b)`: latch line written -/
  | lat (b : Bool)
  /-- `ADDR(v)`: row-address lines written -/
  | addr (v : BitVec 4)
  /-- `DATA(v)`: colour lines written -/
  | data (v : Lines)
  /-- `CLK(b)`: shift clock written -/
  | clk (b : Bool)
  /-- `TMR(d)`: timer armed with interval `d`, count restarted -/
  | tmr (d : BitVec 16)
  /-- `TMRSTOP`: timer stopped -/
  | tmrStop
  deriving DecidableEq, Repr

/-- The five pin registers (10_state.md R22 to R26). -/
structure Pins where
  /-- 1: panel output disabled -/
  blank : Bool
  /-- the latch line -/
  lat : Bool
  /-- the shift clock -/
  clk : Bool
  /-- the row-address lines -/
  addr : BitVec 4
  /-- the six colour lines, `{B, G, R bottom, B, G, R top}` -/
  data : Lines
  deriving DecidableEq, Repr

/-- The timer interface (10_state.md R27). -/
structure Timer where
  /-- `tmr_period` -/
  period : BitVec 16
  /-- `tmr_run` -/
  run : Bool
  /-- `tmr_pending` -/
  pending : Bool
  deriving DecidableEq, Repr

/-- One byte access of a host operation (20_memory.md R38, R44). Between two accesses the host keeps the byte it last read. -/
inductive Access where
  /-- `v = MemRead(b, off, 1)` -/
  | load (b : Buf) (off : Nat)
  /-- `MemWrite(b, off, 1, (v & ~mask) | set)` with the byte `v` last read (41_pixel_writer.md R86) -/
  | store (b : Buf) (off : Nat) (mask set : Byte)
  /-- `rsp <- MemRead(b, off, 1)` (43_buffer_control.md R123) -/
  | respond (b : Buf) (off : Nat)
  deriving DecidableEq, Repr

/-- The host's progress through an operation a `TICK` has interrupted: the byte it last read and the accesses still to make
(60_exceptions.md R136: "simply kept"; log entry 12). -/
structure Progress where
  held : Byte
  todo : List Access
  deriving DecidableEq, Repr

/-- One move of the world outside (log entry 6). -/
inductive Input where
  /-- the host presents a command word; `cuts` says where the timer expires while it runs: the first expiry after that many
  accesses beyond the first, each further one after that many more accesses (log entry 7) -/
  | command (w : CmdWord) (cuts : List Nat)
  /-- the timer's interval ends while no host operation is in progress -/
  | expire
  /-- the `ROT` input takes a value (10_state.md R30) -/
  | rot (r : BitVec 2)
  deriving DecidableEq, Repr

/-- The complete state (10_state.md R13), the ports (R28 to R30), and the model's own script of the world outside. -/
structure State where
  /-- the instance's straps and parameters, never written (10_state.md R28) -/
  straps : Straps
  /-- the `ROT` input (10_state.md R30) -/
  rot : BitVec 2
  /-- `active` (10_state.md R20) -/
  active : Bool
  /-- the scan cursor's `plane` (10_state.md R16) -/
  plane : BitVec 2
  /-- the scan cursor's `row` (10_state.md R17) -/
  row : BitVec 4
  /-- `swapreq` (10_state.md R18) -/
  swapreq : Bool
  /-- `back` (10_state.md R19) -/
  back : Buf
  /-- `FB[0]` (10_state.md R21) -/
  fb0 : Memory
  /-- `FB[1]`, which exists with `DBUF` only (10_state.md R21) -/
  fb1 : Memory
  /-- the pin registers (10_state.md R22 to R26) -/
  pins : Pins
  /-- the timer interface (10_state.md R27) -/
  timer : Timer
  /-- `Out`, oldest event first (10_state.md R33) -/
  out : List Event
  /-- the response port (10_state.md R29) -/
  rsp : Byte
  /-- the response port is driven (10_state.md R29: "valid after `RDSTAT` and `BUFRD` only") -/
  rspValid : Bool
  /-- the host operation a `TICK` has interrupted, if any (60_exceptions.md R136) -/
  suspended : Option Progress
  /-- the model's own: the places of the next expiries inside the host operation in progress (log entry 7) -/
  preempt : List Nat
  /-- the model's own: the moves of the world outside still to come (log entry 6) -/
  inputs : List Input
  /-- the model's own: how often the response port has ceased to be driven (log entry 4) -/
  undriven : Nat
  deriving DecidableEq, Repr

/-- Why the machine stops with a fault. BCMSEQ itself raises none (60_exceptions.md R131). -/
inductive Fault where
  /-- an access to a framebuffer byte the spec says does not exist (20_memory.md R35); raised by `TICK` when `row >= NROWS` and
  by the host's resumed operation when an access lies outside; safe: no run from reset reaches either (log entry 10) -/
  | noSuchByte
  deriving DecidableEq, Repr

/-- Why a situation has no meaning (the spec's `refuse`, 93_implementation_defined.md). -/
inductive Refusal where
  /-- an instruction the model gives no meaning; raised by no arm of `exec`; safe -/
  | notModelled (mnemonic : String)
  /-- a host operation other than `BEGIN` while `active = 0` (43_buffer_control.md R128, U1); raised by those operations; safe -/
  | notActive
  /-- `BEGIN` while `active = 1` (43_buffer_control.md R128, U2); raised by `BEGIN`; safe -/
  | alreadyActive
  /-- `BUFRD` or `BUFWR` with `off >= FBSIZE` (20_memory.md R50, U5); raised by those two; safe -/
  | offsetOutsideBuffer
  /-- a reserved command word (30_encoding.md R63, U3); raised by `step` when such a word is presented; safe -/
  | reserved (why : Reject)
  /-- `TICK` without `active = 1` and `tmr_pending = 1`, which "does not exist" (42_scan_sequencer.md R95, R114); raised by `TICK`,
  never by `step`; safe -/
  | noTickEvent
  deriving DecidableEq, Repr

/-- Power-on of an instance (10_state.md R34, 70_reset_and_hazards.md R151): `active`, `tmr_run`, `tmr_pending` are 0 and `Out` is
empty, as the spec says; every other value is "unspecified" there and named by the model (DESIGN CHOICE, log entries 2, 3, 4,
13). The outside world's script is empty (log entry 6). -/
def State.resetWith (p : Straps) : State where
  straps := p
  rot := 0
  active := false
  plane := 0
  row := 0
  swapreq := false
  back := .fb0
  fb0 := []
  fb1 := []
  pins := ⟨false, false, false, 0, 0⟩
  timer := ⟨0, false, false⟩
  out := []
  rsp := 0
  rspValid := false
  suspended := none
  preempt := []
  inputs := []
  undriven := 0

/-- Power-on of the one instance the interface asks for (log entry 1). -/
def State.reset : State := State.resetWith Config.straps

end Sys2Proof.Machine
end

