-- ==== Sys2Proof/Machine/Memory.lean ====
section
/-! DEFINITION. A framebuffer's bytes: one read and one write, of one byte (20_memory.md R38), on the canonical list. -/

namespace Sys2Proof.Machine

/-- The canonical form: offsets strictly rising, and no entry equal to what an unlisted offset reads as. -/
def Memory.wf (m : Memory) : Bool :=
  decide (m.Pairwise (fun a b => a.1 < b.1)) && m.all (fun c => c.2 != 0)

/-- Every listed byte exists: its offset is below `n` (20_memory.md R35). -/
def Memory.within (n : Nat) (m : Memory) : Bool :=
  m.all (fun c => decide (c.1 < n))

/-- The byte at an offset; an offset not listed reads 0x00 (log entry 3). -/
def Memory.read : Memory → Nat → Byte
  | [], _ => 0
  | (b, x) :: m, a => if a = b then x else Memory.read m a

/-- The memory after one byte is written (20_memory.md R42, R43). -/
def Memory.write : Memory → Nat → Byte → Memory
  | [], a, v => if v = 0 then [] else [(a, v)]
  | (b, x) :: m, a, v =>
    if a < b then (if v = 0 then (b, x) :: m else (a, v) :: (b, x) :: m)
    else if a = b then (if v = 0 then m else (a, v) :: m)
    else (b, x) :: Memory.write m a v

/-- `for off in 0 .. n-1: MemWrite(b, off, 1, 0x00)` (43_buffer_control.md R115). -/
def Memory.clear (n : Nat) (m : Memory) : Memory :=
  (List.range n).foldl (fun m off => m.write off 0) m

end Sys2Proof.Machine
end

