-- ==== Sys2Proof/Machine/Operands.lean ====
section
/-! DEFINITION. The combinational parts: colour truncation (30_encoding.md R52), rotation and bounds (41_pixel_writer.md R81 to
R83), the framebuffer address decoder (40_address_decoder.md R69 to R77), and the scan line (42_scan_sequencer.md R105, R106). -/

namespace Sys2Proof.Machine

/-! ## Colour -/

/-- A colour channel, R = 0, G = 1, B = 2 (40_address_decoder.md R69). -/
inductive Channel where
  | red
  | green
  | blue
  deriving DecidableEq, Repr

/-- The channel's number (40_address_decoder.md R69). -/
def Channel.num : Channel → Nat
  | .red => 0
  | .green => 1
  | .blue => 2

/-- The three 4-bit channel values of one pixel. -/
structure Rgb4 where
  r : BitVec 4
  g : BitVec 4
  b : BitVec 4
  deriving DecidableEq, Repr

/-- The value of one channel. -/
def Rgb4.get (v : Rgb4) : Channel → BitVec 4
  | .red => v.r
  | .green => v.g
  | .blue => v.b

/-- Channel truncation: `r = c[15:12]`, `g = c[10:7]`, `b = c[4:1]` (30_encoding.md R52, 41_pixel_writer.md R84). -/
def truncateColor (c : Half) : Rgb4 :=
  ⟨c.extractLsb' 12 4, c.extractLsb' 7 4, c.extractLsb' 1 4⟩

/-! ## Coordinates -/

/-- `HEIGHT = 2*NROWS` (00_scope.md R67). -/
def panelHeight (n : RowCount) : Nat := 2 * n.toNat

/-- The extent `(lw, lh)` the coordinates are checked against (41_pixel_writer.md R81). -/
def logicalExtent (n : RowCount) (rot : BitVec 2) : Nat × Nat :=
  if rot = 0 ∨ rot = 2 then (Config.width, panelHeight n) else (panelHeight n, Config.width)

/-- The bounds test of 41_pixel_writer.md R82, on signed coordinates. -/
def inBounds (n : RowCount) (rot : BitVec 2) (x y : Half) : Bool :=
  decide (0 ≤ x.toInt ∧ x.toInt < (logicalExtent n rot).1 ∧ 0 ≤ y.toInt ∧ y.toInt < (logicalExtent n rot).2)

/-- The rotation table of 41_pixel_writer.md R83, on in-range coordinates: the physical `(px, py)`. -/
def rotate (n : RowCount) (rot : BitVec 2) (x y : Nat) : Nat × Nat :=
  if rot = 0 then (x, y)
  else if rot = 1 then (Config.width - 1 - y, x)
  else if rot = 2 then (Config.width - 1 - x, panelHeight n - 1 - y)
  else (y, panelHeight n - 1 - x)

/-! ## The address decoder -/

/-- The top or the bottom half of the panel (40_address_decoder.md R70). -/
inductive HalfPanel where
  | top
  | bottom
  deriving DecidableEq, Repr

/-- The half's number (40_address_decoder.md R70). -/
def HalfPanel.num : HalfPanel → Nat
  | .top => 0
  | .bottom => 1

/-- The half a physical row lies in (40_address_decoder.md R70). -/
def halfOf (n : RowCount) (py : Nat) : HalfPanel := if py < n.toNat then .top else .bottom

/-- The scan row of a physical row (40_address_decoder.md R70). -/
def scanRowOf (n : RowCount) (py : Nat) : Nat := if py < n.toNat then py else py - n.toNat

/-- `FbBase(row, col) = row*WIDTH*(NPLANES-1) + col` (40_address_decoder.md R71). -/
def fbBase (row col : Nat) : Nat := row * (Config.width * (Config.nplanes - 1)) + col

/-- Where plane 0 of a channel stands, as a step from the base and a bit (40_address_decoder.md R73). -/
def planeZeroPlace : HalfPanel → Channel → Nat × Nat
  | .top, .red => (64, 0)
  | .top, .green => (64, 1)
  | .top, .blue => (32, 0)
  | .bottom, .red => (32, 1)
  | .bottom, .green => (0, 0)
  | .bottom, .blue => (0, 1)

/-- `FbAddr(half, row, col, p, ch)`: the byte offset and the bit of one pixel bit (40_address_decoder.md R72, R73). -/
def fbAddr (half : HalfPanel) (row col p : Nat) (ch : Channel) : Nat × Nat :=
  if p = 0 then
    (fbBase row col + (planeZeroPlace half ch).1, (planeZeroPlace half ch).2)
  else
    (fbBase row col + (p - 1) * Config.width,
      match half with
      | .top => 2 + ch.num
      | .bottom => 5 + ch.num)

/-- The byte with bit `n` equal to `b` and every other bit 0. -/
def bitAt (b : Bool) (n : Nat) : Byte := (BitVec.ofBool b).setWidth 8 <<< n

/-- `RMW(o, m, s)`: one read, one write (41_pixel_writer.md R86). -/
def rmw (b : Buf) (o : Nat) (mask set : Byte) : List Access :=
  [.load b o, .store b o mask set]

/-- `RMW2(o, m, s)`: one read, the target bits cleared, then set (41_pixel_writer.md R86). -/
def rmw2 (b : Buf) (o : Nat) (mask set : Byte) : List Access :=
  [.load b o, .store b o mask 0, .store b o mask set]

/-- `WriteTop(b, base, r, g, bl)` (41_pixel_writer.md R86). -/
def writeTop (b : Buf) (base : Nat) (v : Rgb4) : List Access :=
  rmw2 b (base + 64) 0x03 (bitAt (v.r.getLsbD 0) 0 ||| bitAt (v.g.getLsbD 0) 1)
  ++ rmw2 b (base + 32) 0x01 (bitAt (v.b.getLsbD 0) 0)
  ++ [1, 2, 3].flatMap fun p =>
      rmw b (base + (p - 1) * 32) 0x1C
        (bitAt (v.r.getLsbD p) 2 ||| bitAt (v.g.getLsbD p) 3 ||| bitAt (v.b.getLsbD p) 4)

/-- `WriteBottom(b, base, r, g, bl)` (41_pixel_writer.md R86). -/
def writeBottom (b : Buf) (base : Nat) (v : Rgb4) : List Access :=
  rmw2 b base 0x03 (bitAt (v.g.getLsbD 0) 0 ||| bitAt (v.b.getLsbD 0) 1)
  ++ rmw2 b (base + 32) 0x02 (bitAt (v.r.getLsbD 0) 1)
  ++ [1, 2, 3].flatMap fun p =>
      rmw b (base + (p - 1) * 32) 0xE0
        (bitAt (v.r.getLsbD p) 5 ||| bitAt (v.g.getLsbD p) 6 ||| bitAt (v.b.getLsbD p) 7)

/-- The accesses that write a physical pixel, half and base by 41_pixel_writer.md R85. -/
def pixelAccesses (n : RowCount) (b : Buf) (px py : Nat) (v : Rgb4) : List Access :=
  match halfOf n py with
  | .top => writeTop b (fbBase (scanRowOf n py) px) v
  | .bottom => writeBottom b (fbBase (scanRowOf n py) px) v

/-- The accesses that copy `n` bytes in ascending order, one read and one write each (43_buffer_control.md R121). -/
def copyAccesses (src dst : Buf) (n : Nat) : List Access :=
  (List.range n).flatMap fun off => [.load src off, .store dst off 0 0]

/-- The channel value stored for a physical pixel (40_address_decoder.md R76). -/
def unpackChannel (n : RowCount) (m : Memory) (px py : Nat) (ch : Channel) : BitVec 4 :=
  stored 3 ++ stored 2 ++ stored 1 ++ stored 0
where
  /-- the stored bit of plane `p` -/
  stored (p : Nat) : BitVec 1 :=
    BitVec.ofBool ((m.read (fbAddr (halfOf n py) (scanRowOf n py) px p ch).1).getLsbD
      (fbAddr (halfOf n py) (scanRowOf n py) px p ch).2)

/-- `Unpack(b, px, py)` (40_address_decoder.md R76). -/
def unpack (n : RowCount) (m : Memory) (px py : Nat) : Rgb4 :=
  ⟨unpackChannel n m px py .red, unpackChannel n m px py .green, unpackChannel n m px py .blue⟩

/-- `Line(f, plane, row, col)`: planes 1 to 3 by 42_scan_sequencer.md R105, plane 0 by R106. -/
def lineAt (m : Memory) (plane row col : Nat) : Lines :=
  if plane = 0 then
    (m.read (row * 96 + col)).extractLsb' 0 2 ++ (m.read (row * 96 + col + 32)).extractLsb' 0 2
      ++ (m.read (row * 96 + col + 64)).extractLsb' 0 2
  else
    (m.read (row * 96 + (plane - 1) * 32 + col)).extractLsb' 2 6

end Sys2Proof.Machine
end

