-- ==== Sys2Proof/Machine/Ops.lean ====
section
/-! DEFINITION. The named operations over the state: buffer roles (10_state.md R19), byte accesses (20_memory.md R38), output
events (10_state.md R33), the response port (30_encoding.md R62), the timer (60_exceptions.md R141), entry to and return from the
one interrupt (R136, R138), and the host's interruptible accesses (20_memory.md R44). -/

namespace Sys2Proof.Machine

/-! ## Buffer roles -/

/-- `1 - b` on a buffer index (10_state.md R19). -/
def Buf.other : Buf → Buf
  | .fb0 => .fb1
  | .fb1 => .fb0

/-- `NROWS`. -/
def State.nrows (s : State) : Nat := s.straps.nrows.toNat

/-- `FBSIZE` (00_scope.md R67). -/
def State.fbSize (s : State) : Nat := s.straps.nrows.fbSize

/-- The back buffer's index `bk` (10_state.md R19). -/
def State.bk (s : State) : Buf := if s.straps.dbuf then s.back else .fb0

/-- The front buffer's index `fr` (10_state.md R19). -/
def State.fr (s : State) : Buf := if s.straps.dbuf then s.back.other else .fb0

/-! ## Framebuffer bytes -/

/-- `FB[b]`. -/
def State.fb (s : State) : Buf → Memory
  | .fb0 => s.fb0
  | .fb1 => s.fb1

/-- The state with `FB[b]` replaced. -/
def State.setFb (s : State) : Buf → Memory → State
  | .fb0, m => { s with fb0 := m }
  | .fb1, m => { s with fb1 := m }

/-- The byte `FB[b][off]` exists (20_memory.md R35): the offset lies in the buffer, and `FB[1]` needs `DBUF`. -/
def State.hasByte (s : State) (b : Buf) (off : Nat) : Bool :=
  decide (off < s.fbSize) && (s.straps.dbuf || decide (b = .fb0))

/-- `MemRead(b, off, 1)` (20_memory.md R38). -/
def State.memRead (s : State) (b : Buf) (off : Nat) : Byte := (s.fb b).read off

/-- `MemWrite(b, off, 1, v)` (20_memory.md R38). -/
def State.memWrite (s : State) (b : Buf) (off : Nat) (v : Byte) : State :=
  s.setFb b ((s.fb b).write off v)

/-! ## Output events -/

/-- The pin register an event sets (10_state.md R33). -/
def Pins.apply (p : Pins) : Event → Pins
  | .blank b => { p with blank := b }
  | .lat b => { p with lat := b }
  | .addr v => { p with addr := v }
  | .data v => { p with data := v }
  | .clk b => { p with clk := b }
  | .tmr _ => p
  | .tmrStop => p

/-- The timer registers an event sets (10_state.md R33). -/
def Timer.apply (t : Timer) : Event → Timer
  | .tmr d => { t with period := d, run := true }
  | .tmrStop => { t with run := false, pending := false }
  | .blank _ => t
  | .lat _ => t
  | .addr _ => t
  | .data _ => t
  | .clk _ => t

/-- `emit E`: the event is appended to `Out`, changed value or not, and its register is set (00_scope.md R11, 10_state.md R33). -/
def State.emit (s : State) (e : Event) : State :=
  { s with pins := s.pins.apply e, timer := s.timer.apply e, out := s.out ++ [e] }

/-- The events emitted one after another. -/
def State.emitAll (s : State) (es : List Event) : State := es.foldl State.emit s

/-! ## The response port -/

/-- The port carries a response (30_encoding.md R62). -/
def State.respond (s : State) (v : Byte) : State := { s with rsp := v, rspValid := true }

/-- The port is not driven and may show any value (30_encoding.md R62, 93_implementation_defined.md U12; log entries 4, 5). -/
def State.undriveRsp (s : State) : State :=
  { s with rsp := Config.undrivenRsp s.undriven, rspValid := false, undriven := s.undriven + 1 }

/-! ## The timer and the interrupt -/

/-- `EXPIRE` of a running timer (60_exceptions.md R141). -/
def State.expire (s : State) : State := { s with timer := { s.timer with run := false, pending := true } }

/-- A `TICK` is due: "taken when `active = 1` and `tmr_pending = 1` and no `TICK` is in progress" (60_exceptions.md R134; a tick is
one step, so none is ever in progress between steps). -/
def State.tickDue (s : State) : Bool := s.active && s.timer.pending

/-- Entry to the interrupt: the acknowledge (42_scan_sequencer.md R95). Nothing is saved and no mode, stack or mask changes; the
host's progress is simply kept (60_exceptions.md R136). -/
def State.enterTick (s : State) : State := { s with timer := { s.timer with pending := false } }

/-- Return from the interrupt: nothing is restored and nothing re-enabled (60_exceptions.md R138); a `TICK` leaves no response on the
port (30_encoding.md R62, log entry 5). -/
def State.leaveTick (s : State) : State := s.undriveRsp

/-! ## The host's byte accesses -/

/-- The byte an access touches exists. -/
def Access.exists (s : State) : Access → Bool
  | .load b off => s.hasByte b off
  | .store b off _ _ => s.hasByte b off
  | .respond b off => s.hasByte b off

/-- The byte the host holds after an access. -/
def Access.held (s : State) (h : Byte) : Access → Byte
  | .load b off => s.memRead b off
  | .store _ _ _ _ => h
  | .respond _ _ => h

/-- The state after an access by a host that holds `h` (41_pixel_writer.md R86, 43_buffer_control.md R121 to R124). -/
def Access.after (s : State) (h : Byte) : Access → State
  | .load _ _ => s
  | .store b off mask set => s.memWrite b off ((h &&& ~~~mask) ||| set)
  | .respond b off => s.respond (s.memRead b off)

/-- The host makes its accesses in order. Before each of them the timer may expire, where `cuts` says (20_memory.md R44 item 3;
log entry 7): the operation is then suspended with its progress kept (60_exceptions.md R136), for the `TICK` that is due. A timer
that does not run does not expire (R141). -/
def hostRun : List Access → List Nat → Byte → State → State
  | [], _, _, s => { s with preempt := [] }
  | a :: rest, [], h, s => hostRun rest [] (a.held s h) (a.after s h)
  | a :: rest, 0 :: cuts, h, s =>
    if s.timer.run then
      { s.expire with suspended := some ⟨h, a :: rest⟩, preempt := cuts }
    else hostRun rest cuts (a.held s h) (a.after s h)
  | a :: rest, (k + 1) :: cuts, h, s => hostRun rest (k :: cuts) (a.held s h) (a.after s h)

/-- A host operation begins: its first access follows what it computed at its start at once, and a `TICK` may fall between any two
accesses from there on (20_memory.md R44 item 3; log entry 7). -/
def hostStart (accesses : List Access) (s : State) : State :=
  match accesses with
  | [] => { s with preempt := [] }
  | a :: rest => hostRun rest s.preempt (a.held s 0) (a.after s 0)

/-- "When step 6 ends the suspended host operation continues with its next access" (60_exceptions.md R138). -/
def hostResume (p : Progress) (s : State) : Host.Outcome State Fault Refusal :=
  if p.todo.all (Access.exists s) then
    .next (hostRun p.todo s.preempt p.held { s with suspended := none })
  else .fault .noSuchByte

end Sys2Proof.Machine
end

