-- ==== Sys2Proof/Machine/Flags.lean ====
section
/-! DEFINITION. The one flag the host and the sequencer share, `swapreq` (10_state.md R18): its setting, its reading, its
consumption. BCMSEQ has no condition codes. -/

namespace Sys2Proof.Machine

/-- `if DBUF: swapreq <- 1` (43_buffer_control.md R119). -/
def State.requestSwap (s : State) : State :=
  if s.straps.dbuf then { s with swapreq := true } else s

/-- `{0b0000000, swapreq}` (30_encoding.md R62, 43_buffer_control.md R120). -/
def State.statusByte (s : State) : Byte := (0#7) ++ BitVec.ofBool s.swapreq

/-- At a frame boundary: `if swapreq = 1: back <- 1 - back; swapreq <- 0` (42_scan_sequencer.md R100). -/
def State.consumeSwap (s : State) : State :=
  if s.swapreq then { s with back := s.back.other, swapreq := false } else s

end Sys2Proof.Machine
end

