-- ==== Sys2Proof/Machine/Buffer.lean ====
section
/-! DEFINITION. The host's buffer and handshake operations: `SWAPREQ`, `RDSTAT`, `COPYFWD`, `BUFRD`, `BUFWR`
(43_buffer_control.md R119 to R125). -/

namespace Sys2Proof.Machine

/-- `SWAPREQ` (43_buffer_control.md R119). -/
def execSwapReq (s : State) : Host.Outcome State Fault Refusal :=
  if s.active then .next s.undriveRsp.requestSwap else .refused .notActive

/-- `RDSTAT` (43_buffer_control.md R120). -/
def execRdStat (s : State) : Host.Outcome State Fault Refusal :=
  if s.active then .next (s.respond s.statusByte) else .refused .notActive

/-- The accesses of `COPYFWD` in a state, with the roles read once: none without `DBUF` (43_buffer_control.md R121). -/
def State.copyForwardAccesses (s : State) : List Access :=
  if s.straps.dbuf then copyAccesses s.fr s.bk s.fbSize else []

/-- `COPYFWD` (43_buffer_control.md R121). -/
def execCopyFwd (s : State) : Host.Outcome State Fault Refusal :=
  if s.active then .next (hostStart s.copyForwardAccesses s.undriveRsp) else .refused .notActive

/-- `BUFRD off` (43_buffer_control.md R123). -/
def execBufRd (off : Half) (s : State) : Host.Outcome State Fault Refusal :=
  if s.active then
    if off.toNat < s.fbSize then .next (hostStart [.respond s.bk off.toNat] s)
    else .refused .offsetOutsideBuffer
  else .refused .notActive

/-- `BUFWR off, v`: one byte write, no read (43_buffer_control.md R124). -/
def execBufWr (off : Half) (v : Byte) (s : State) : Host.Outcome State Fault Refusal :=
  if s.active then
    if off.toNat < s.fbSize then .next (hostStart [.store s.bk off.toNat 0xFF v] s.undriveRsp)
    else .refused .offsetOutsideBuffer
  else .refused .notActive

end Sys2Proof.Machine
end

