-- ==== Sys2Proof/Machine/Control.lean ====
section
/-! DEFINITION. Initialisation and shut-down: `BEGIN` and `STOP` (43_buffer_control.md R115 to R118). -/

namespace Sys2Proof.Machine

/-- "allocates framebuffer(s)": both buffers, or `FB[0]` alone without `DBUF`, filled with zero (43_buffer_control.md R115). -/
def State.clearBuffers (s : State) : State :=
  if s.straps.dbuf then { s with fb0 := s.fb0.clear s.fbSize, fb1 := s.fb1.clear s.fbSize }
  else { s with fb0 := s.fb0.clear s.fbSize }

/-- "configures pins": the five pin events of `BEGIN` in order (43_buffer_control.md R115). -/
def State.configurePins (s : State) : State :=
  s.emitAll [.blank true, .lat false, .clk false, .addr 0, .data 0]

/-- `BEGIN` (43_buffer_control.md R115); refused while `active = 1` (R128). It is atomic in effect, since no `TICK` can fall inside
it (R116). -/
def execBegin (s : State) : Host.Outcome State Fault Refusal :=
  if s.active then .refused .alreadyActive
  else
    let s1 : State := { s.undriveRsp.clearBuffers with
      plane := 3, row := BitVec.ofNat 4 (s.nrows - 1), swapreq := false, back := .fb0 }
    let s2 : State := s1.configurePins.enterTick
    .next { s2.emit (.tmr (BitVec.ofNat 16 s.straps.firstInterval)) with active := true }

/-- `STOP` (43_buffer_control.md R117); refused while `active = 0` (R128). -/
def execStop (s : State) : Host.Outcome State Fault Refusal :=
  if s.active then .next { s.undriveRsp.emitAll [.tmrStop, .blank true] with active := false }
  else .refused .notActive

end Sys2Proof.Machine
end

