-- ==== Sys2Proof/Machine/Pixel.lean ====
section
/-! DEFINITION. The pixel bit-packer: `SETPIXEL` (41_pixel_writer.md). -/

namespace Sys2Proof.Machine

/-- The accesses of `SETPIXEL x, y, c` in a state: none out of bounds, else those of the rotated pixel in the back buffer, with
`ROT` and `bk` sampled once (41_pixel_writer.md R80). -/
def State.setPixelAccesses (s : State) (x y c : Half) : List Access :=
  if inBounds s.straps.nrows s.rot x y then
    pixelAccesses s.straps.nrows s.bk (rotate s.straps.nrows s.rot x.toNat y.toNat).1
      (rotate s.straps.nrows s.rot x.toNat y.toNat).2 (truncateColor c)
  else []

/-- `SETPIXEL x, y, c` (41_pixel_writer.md R80); refused while `active = 0` (43_buffer_control.md R128). -/
def execSetPixel (x y c : Half) (s : State) : Host.Outcome State Fault Refusal :=
  if s.active then .next (hostStart (s.setPixelAccesses x y c) s.undriveRsp)
  else .refused .notActive

end Sys2Proof.Machine
end

