-- ==== Sys2Proof/Machine/Scan.lean ====
section
/-! DEFINITION. The scan sequencer: `TICK`, its six steps (42_scan_sequencer.md), and its timing figures (70_reset_and_hazards.md
R164). -/

namespace Sys2Proof.Machine

/-- `d(p) = ((B + 2*C) << plane) - C` (42_scan_sequencer.md R97). -/
def duration (p : Straps) (plane : Nat) : Nat :=
  ((p.baseLoopTicks + 2 * p.callOverhead) <<< plane) - p.callOverhead

/-- Sum of the intervals armed per scan row: one for each plane (42_scan_sequencer.md R111, 70_reset_and_hazards.md R164). -/
def rowTicks (p : Straps) : Nat := ((List.range 4).map (duration p)).sum

/-- Sum of the intervals armed per frame (70_reset_and_hazards.md R164). -/
def frameTicks (p : Straps) : Nat := p.nrows.toNat * rowTicks p

/-- From one expiry to the next while plane `plane` is shown, if the latency from expiry to re-arm is `C`
(70_reset_and_hazards.md R164). -/
def expirySpacing (p : Straps) (plane : Nat) : Nat := 2 ^ plane * (p.baseLoopTicks + 2 * p.callOverhead)

/-- From expiry to expiry over a whole frame, with that latency (70_reset_and_hazards.md R164). -/
def frameSpacing (p : Straps) : Nat := p.nrows.toNat * ((List.range 4).map (expirySpacing p)).sum

/-- Ticks per frame, and the latest consumption of a swap request in ticks (42_scan_sequencer.md R101, 70_reset_and_hazards.md
R164). -/
def ticksPerFrame (p : Straps) : Nat := 4 * p.nrows.toNat

/-- Step 1: blank, then latch (42_scan_sequencer.md R96). -/
def State.blankAndLatch (s : State) : State := s.emitAll [.blank true, .lat true]

/-- Step 3: the cursor advances, plane first; at the frame boundary a requested swap is made (42_scan_sequencer.md R99, R100). -/
def State.advanceCursor (s : State) : State :=
  if s.plane.toNat + 1 = 4 then
    if s.row.toNat + 1 = s.nrows then ({ s with plane := 0, row := 0 } : State).consumeSwap
    else { s with plane := 0, row := BitVec.ofNat 4 (s.row.toNat + 1) }
  else { s with plane := BitVec.ofNat 2 (s.plane.toNat + 1) }

/-- Step 4: when the new plane is 1 the row address is driven (42_scan_sequencer.md R102). -/
def State.driveRowAddress (s : State) : State :=
  if s.plane = 1 then s.emit (.addr s.row) else s

/-- Step 5: the timer re-armed, the panel enabled, the latch dropped (42_scan_sequencer.md R103). -/
def State.rearmAndShow (s : State) (d : Nat) : State :=
  s.emitAll [.tmr (BitVec.ofNat 16 d), .blank false, .lat false]

/-- The events of step 6: 32 columns, ascending, three events each (42_scan_sequencer.md R104). -/
def lineEvents (m : Memory) (plane row : Nat) : List Event :=
  (List.range 32).flatMap fun col => [.data (lineAt m plane row col), .clk true, .clk false]

/-- Step 6: the line of the new cursor, from the front buffer as it is after step 3 (42_scan_sequencer.md R104 to R107). -/
def State.emitLine (s : State) : State :=
  s.emitAll (lineEvents (s.fb s.fr) s.plane.toNat s.row.toNat)

/-- The six steps in order, from entry to return; the duration is that of the plane at entry (42_scan_sequencer.md R94). -/
def State.sweep (s : State) : State :=
  ((s.enterTick.blankAndLatch.advanceCursor.driveRowAddress.rearmAndShow
    (duration s.straps s.plane.toNat)).emitLine).leaveTick

/-- `TICK` (42_scan_sequencer.md R94). Without its event it does not exist (R95, R114); with `row >= NROWS`, which no run from reset
reaches, it would scan bytes that do not exist (20_memory.md R35; log entry 10). -/
def execTick (s : State) : Host.Outcome State Fault Refusal :=
  if s.tickDue then
    if s.row.toNat < s.nrows then .next s.sweep else .fault .noSuchByte
  else .refused .noTickEvent

end Sys2Proof.Machine
end

