-- ==== Sys2Proof/Machine/Dispatch.lean ====
section
/-! DEFINITION. One arm per operation. -/

namespace Sys2Proof.Machine

def exec (i : Instr) (s : State) : Host.Outcome State Fault Refusal :=
  match i with
  | .begin => Sys2Proof.Machine.execBegin s
  | .stop => Sys2Proof.Machine.execStop s
  | .setPixel x y c => Sys2Proof.Machine.execSetPixel x y c s
  | .swapReq => Sys2Proof.Machine.execSwapReq s
  | .rdStat => Sys2Proof.Machine.execRdStat s
  | .copyFwd => Sys2Proof.Machine.execCopyFwd s
  | .bufRd off => Sys2Proof.Machine.execBufRd off s
  | .bufWr off v => Sys2Proof.Machine.execBufWr off v s
  | .tick => Sys2Proof.Machine.execTick s

end Sys2Proof.Machine
end

