-- ==== Sys2Proof/Machine/Turn.lean ====
section
/-! DEFINITION. Who moves next: the total order of the three agents' moves (20_memory.md R44, 60_exceptions.md R134 to R138, R141),
as the script of the world outside gives it (log entries 6 to 9). -/

namespace Sys2Proof.Machine

/-- The next move of the machine. -/
inductive Turn where
  /-- an operation runs, in this state -/
  | run (i : Instr) (s : State)
  /-- the host's interrupted operation continues -/
  | resume (p : Progress)
  /-- a reserved word stands on the command port -/
  | reject (why : Reject)
  /-- the timer, the `ROT` input, or nobody: the next state -/
  | moved (s : State)
  deriving DecidableEq, Repr

/-- The running timer expires, a stopped one does not (60_exceptions.md R141). -/
def State.expireIfRunning (s : State) : State := if s.timer.run then s.expire else s

/-- A command word is taken from the port (10_state.md R29): the operation it selects runs in the state without it. -/
def State.accept (s : State) (w : CmdWord) (cuts : List Nat) (rest : List Input) : Turn :=
  match decodeCommand w with
  | .ok i => .run i { s with inputs := rest, preempt := cuts }
  | .error e => .reject e

/-- A pending `TICK` comes before any further host access (60_exceptions.md R137); then an interrupted host operation, which runs
to completion before the next command is accepted (10_state.md R29); then the next move of the world outside. When the script
is empty a running timer expires, which keeps the fairness of 60_exceptions.md R141 (log entry 8). -/
def State.turn (s : State) : Turn :=
  if s.tickDue then .run .tick s
  else
    match s.suspended with
    | some p => .resume p
    | none =>
      match s.inputs with
      | [] => .moved s.expireIfRunning
      | .expire :: rest => .moved { s.expireIfRunning with inputs := rest }
      | .rot r :: rest => .moved { s with rot := r, inputs := rest }
      | .command w cuts :: rest => s.accept w cuts rest

/-- The state with an operation selected for the very next step (log entry 11). A command word is put on the port, with nothing
that comes before a command (a due `TICK`, an interrupted operation) and with `active` as the word's acceptance needs it
(70_reset_and_hazards.md R152: `BEGIN` is the only operation accepted while `active = 0`). The event is what selects `TICK`:
`tmr_pending = 1` while `active = 1` (30_encoding.md R59). -/
def State.present (s : State) : Presented → State
  | .command w =>
    { s with
      active := !decide (decodeCommand w = .ok .begin)
      timer := { s.timer with pending := false }
      suspended := none
      inputs := .command w [] :: s.inputs }
  | .event e =>
    { s with active := true, timer := { s.timer with pending := decide (e = 1) } }

end Sys2Proof.Machine
end

