-- ==== Sys2Proof/Machine/Step.lean ====
section
/-! DEFINITION. One step of BCMSEQ: the next move in the total order of 20_memory.md R44. -/

namespace Sys2Proof.Machine

/-- One move: an operation, the rest of an interrupted one, or a move of the timer or of the world outside. -/
def step (s : State) : Host.Outcome State Fault Refusal :=
  match s.turn with
  | .run i s' => exec i s'
  | .resume p => hostResume p s
  | .reject e => .refused (.reserved e)
  | .moved s' => .next s'

/-- The state whose very next step runs the operation with these operation-table bits (log entry 11). Bits that present nothing
leave the state as it is. -/
def State.withFetchWord (s : State) (nbits w : Nat) : State :=
  match presentedOfTable nbits w with
  | some p => s.present p
  | none => s

end Sys2Proof.Machine
end

