-- ==== Sys2Proof/Machine/Panel.lean ====
section
/-! DEFINITION. The reference model of the panel (60_exceptions.md R147 to R149): an observer of the output trace, outside BCMSEQ and
outside State. The spec supplies it from general knowledge (decision D24, G6; PRESUMED, log entry 14); no operation depends on it.
What the panel holds before the first emission is an argument: any value (93_implementation_defined.md U6). -/

namespace Sys2Proof.Machine

/-- The panel: `SR[0..31]`, `OUTREG[0..31]` and the levels on its inputs (60_exceptions.md R147, R148). -/
structure Panel where
  /-- the shift stages, stage 0 first -/
  sr : List Lines
  /-- the output registers, column 0 first -/
  outreg : List Lines
  /-- the levels BCMSEQ drives -/
  pins : Pins
  deriving DecidableEq, Repr

/-- An event raises the shift clock from 0 to 1 (60_exceptions.md R147). -/
def risingEdge (p : Pins) (e : Event) : Bool := !p.clk && (p.apply e).clk

/-- `SR[k] <- SR[k+1]`, `SR[31] <- data` (60_exceptions.md R147). -/
def shiftIn (sr : List Lines) (v : Lines) : List Lines := sr.drop 1 ++ [v]

/-- What an event does to the panel: shift on a rising edge (60_exceptions.md R147), `OUTREG <- SR` while `lat = 1` (R148). -/
def Panel.see (p : Panel) (e : Event) : Panel :=
  let sr := if risingEdge p.pins e then shiftIn p.sr p.pins.data else p.sr
  { sr := sr
    outreg := if (p.pins.apply e).lat then sr else p.outreg
    pins := p.pins.apply e }

/-- The panel after a list of events. -/
def Panel.watch (p : Panel) (es : List Event) : Panel := es.foldl Panel.see p

/-- `ADDR_BITS` (00_scope.md R67). -/
def addrBits (n : RowCount) : Nat := if 8 < n.toNat then 4 else 3

/-- The scan row the panel selects, `addr[ADDR_BITS-1:0]` (60_exceptions.md R149). -/
def Panel.selected (n : RowCount) (p : Panel) : Nat := p.pins.addr.toNat % 2 ^ addrBits n

/-- The LED of a channel at physical `(px, py)` is lit (60_exceptions.md R149). -/
def Panel.lit (n : RowCount) (p : Panel) (px py : Nat) (ch : Channel) : Bool :=
  if p.pins.blank then false
  else if py = p.selected n then (p.outreg.getD px 0).getLsbD ch.num
  else if py = p.selected n + n.toNat then (p.outreg.getD px 0).getLsbD (3 + ch.num)
  else false

end Sys2Proof.Machine
end

