-- ==== Sys2Proof/Machine/Wait.lean ====
section
/-! DEFINITION. The host's side of the swap handshake as a loop over the machine: ticks between its operations, the polling of the
status, and the pseudo-operation `SWAPBUFFERS` (30_encoding.md R66, 43_buffer_control.md R126). The loop is in the host, not in BCMSEQ
(44_operation_classes.md R166), so nothing of it is in State. -/

namespace Sys2Proof.Machine

/-- One thing after another: the second is done in the state the first leaves. -/
def andThen {α β : Type} (o : Host.Outcome α Fault Refusal) (f : α → Host.Outcome β Fault Refusal) :
    Host.Outcome β Fault Refusal :=
  match o with
  | .next a => f a
  | .fault r => .fault r
  | .refused r => .refused r

/-- `n` timer expiries, each followed by its `TICK` (60_exceptions.md R141 (b)). -/
def refresh : Nat → State → Host.Outcome State Fault Refusal
  | 0, s => .next s
  | n + 1, s =>
    match exec .tick s.expire with
    | .next s' => refresh n s'
    | .fault r => .fault r
    | .refused r => .refused r

/-- How far the host's wait has come. -/
structure Waited where
  /-- the machine -/
  state : State
  /-- a read has returned 0x00: the wait is over; else the host goes on reading -/
  done : Bool
  deriving DecidableEq, Repr

/-- `repeat: s = RDSTAT until s = 0x00` (43_buffer_control.md R126). Each entry of `between` is one read: so many ticks happen, then
`RDSTAT`. The read that returns 0x00 is the last, whatever reads `between` still holds; when `between` ends before such a read the wait
is not over (93_implementation_defined.md U15; log entry 18). -/
def awaitSwap : List Nat → State → Host.Outcome Waited Fault Refusal
  | [], s => .next ⟨s, false⟩
  | n :: rest, s =>
    andThen (refresh n s) fun s1 =>
      andThen (exec .rdStat s1) fun s2 =>
        if s2.rsp = 0x00 then .next ⟨s2, true⟩ else awaitSwap rest s2

/-- `SWAPBUFFERS copy` (30_encoding.md R66, 43_buffer_control.md R126): nothing without `DBUF`; else `SWAPREQ`, reads until one returns
0x00, and then, with `copy`, `COPYFWD`, before which `late` more ticks may happen (20_memory.md R44 item 3; log entry 18). -/
def swapBuffers (copy : Bool) (between : List Nat) (late : Nat) (s : State) : Host.Outcome Waited Fault Refusal :=
  if s.straps.dbuf then
    andThen (exec .swapReq s) fun s1 =>
      andThen (awaitSwap between s1) fun w =>
        if w.done && copy then
          andThen (refresh late w.state) fun s2 => andThen (exec .copyFwd s2) fun s3 => .next ⟨s3, true⟩
        else .next w
  else .next ⟨s, true⟩

end Sys2Proof.Machine
end

