-- ==== Sys2Proof/Machine/Written.lean ====
section
/-! DEFINITION. The written form of programs: syntax and directives (30_encoding.md R65), `FILLSCREEN` by its expansion (R66,
41_pixel_writer.md R90). Programs are lists of characters, so that Lean's kernel can read them. -/

namespace Sys2Proof.Machine

/-! ## FILLSCREEN -/

/-- `FILLSCREEN c`: `SETPIXEL` over the logical extent, `y` outer, `x` inner (41_pixel_writer.md R90, decision D21). -/
def fillScreen (n : RowCount) (rot : BitVec 2) (c : Half) : List Instr :=
  (List.range (logicalExtent n rot).2).flatMap fun y =>
    (List.range (logicalExtent n rot).1).map fun x => .setPixel (BitVec.ofNat 16 x) (BitVec.ofNat 16 y) c

/-! ## Lines -/

/-- One line of a written program (30_encoding.md R65). -/
inductive WrittenLine where
  /-- an operation or the mark `TICK`, with the result written after `->`, if any -/
  | op (i : Instr) (result : Option Byte)
  /-- `.nrows 8|16` -/
  | nrows (n : RowCount)
  /-- `.dbuf 0|1` -/
  | dbuf (b : Bool)
  /-- `.timing B, C` -/
  | timing (b c : Nat)
  /-- `.first n` -/
  | first (n : Nat)
  /-- `.rot 0|1|2|3` -/
  | rot (r : BitVec 2)
  /-- nothing but a comment -/
  | empty
  deriving DecidableEq, Repr

/-- The value of a digit in base 16. -/
def digitValue (ch : Char) : Option Nat :=
  if '0'.val ≤ ch.val ∧ ch.val ≤ '9'.val then some (ch.val - '0'.val).toNat
  else if 'A'.val ≤ ch.val ∧ ch.val ≤ 'F'.val then some ((ch.val - 'A'.val).toNat + 10)
  else if 'a'.val ≤ ch.val ∧ ch.val ≤ 'f'.val then some ((ch.val - 'a'.val).toNat + 10)
  else none

/-- Digits in a base, most significant first, after what was read so far. -/
def readDigits (base : Nat) : List Char → Nat → Option Nat
  | [], acc => some acc
  | ch :: cs, acc =>
    match digitValue ch with
    | some d => if d < base then readDigits base cs (acc * base + d) else none
    | none => none

/-- An unsigned number, decimal or `0x` hexadecimal (30_encoding.md R65). -/
def readNat : List Char → Option Nat
  | [] => none
  | '0' :: 'x' :: d :: ds => readDigits 16 (d :: ds) 0
  | d :: ds => readDigits 10 (d :: ds) 0

/-- A number, optionally negative (30_encoding.md R65). The rule allows the minus sign for decimals; that it is read before `0x` too is
the model's choice (DESIGN CHOICE, log entry 17). -/
def readInt : List Char → Option Int
  | '-' :: cs => (readNat cs).map fun n => -(n : Int)
  | cs => (readNat cs).map fun n => (n : Int)

/-- An unsigned operand of `w` bits. That a negative or too large number gives no operand is the model's choice (DESIGN CHOICE, log
entry 17). -/
def readField (w : Nat) (cs : List Char) : Option (BitVec w) :=
  match readNat cs with
  | some n => if n < 2 ^ w then some (BitVec.ofNat w n) else none
  | none => none

/-- A 16-bit two's complement coordinate, by its value (30_encoding.md R53). Whether a hexadecimal coordinate above 0x7FFF stands for the
bits of a negative one (0xFFFF for -1) is left open by R65; that it gives no coordinate, as every number outside -32768 to 32767, is
the model's choice (DESIGN CHOICE, log entry 17). -/
def readCoord (cs : List Char) : Option Half :=
  match readInt cs with
  | some n => if -32768 ≤ n ∧ n ≤ 32767 then some (BitVec.ofInt 16 n) else none
  | none => none

/-- The words of a line up to its comment: runs of characters between blanks, each comma a word of its own. `cur` is the word being
read, its last character first. -/
def splitWords : List Char → List Char → List (List Char)
  | [], cur => if cur.isEmpty then [] else [cur.reverse]
  | ch :: cs, cur =>
    if ch = ';' then (if cur.isEmpty then [] else [cur.reverse])
    else if ch = ' ' ∨ ch = '\t' then (if cur.isEmpty then splitWords cs [] else cur.reverse :: splitWords cs [])
    else if ch = ',' then
      (if cur.isEmpty then [','] :: splitWords cs [] else cur.reverse :: [','] :: splitWords cs [])
    else splitWords cs (ch :: cur)

/-- The result written after an operation: `-> value`, or nothing (30_encoding.md R65), the arrow a word of its own (DESIGN CHOICE, log
entry 17). -/
def readResult : List (List Char) → Option (Option Byte)
  | [] => some none
  | [['-', '>'], v] => (readField 8 v).map some
  | _ => none

/-- The operation or directive of a line's words, in the forms of 30_encoding.md R65 and no other: a repeated mark such as the `TICK x 31`
of 95_test_vectors.md P3, which is not a form of R65, gives no line (DESIGN CHOICE, log entry 17). -/
def readWords : List (List Char) → Option WrittenLine
  | [] => some .empty
  | ['B', 'E', 'G', 'I', 'N'] :: [] => some (.op .begin none)
  | ['S', 'T', 'O', 'P'] :: [] => some (.op .stop none)
  | ['S', 'E', 'T', 'P', 'I', 'X', 'E', 'L'] :: x :: [','] :: y :: [','] :: c :: [] => do
    return .op (.setPixel (← readCoord x) (← readCoord y) (← readField 16 c)) none
  | ['S', 'W', 'A', 'P', 'R', 'E', 'Q'] :: [] => some (.op .swapReq none)
  | ['R', 'D', 'S', 'T', 'A', 'T'] :: r => (readResult r).map (.op .rdStat)
  | ['C', 'O', 'P', 'Y', 'F', 'W', 'D'] :: [] => some (.op .copyFwd none)
  | ['B', 'U', 'F', 'R', 'D'] :: off :: r => do
    return .op (.bufRd (← readField 16 off)) (← readResult r)
  | ['B', 'U', 'F', 'W', 'R'] :: off :: [','] :: v :: [] => do
    return .op (.bufWr (← readField 16 off) (← readField 8 v)) none
  | ['T', 'I', 'C', 'K'] :: [] => some (.op .tick none)
  | ['.', 'n', 'r', 'o', 'w', 's'] :: v :: [] =>
    match readNat v with
    | some 8 => some (.nrows .rows8)
    | some 16 => some (.nrows .rows16)
    | _ => none
  | ['.', 'd', 'b', 'u', 'f'] :: v :: [] =>
    match readNat v with
    | some 0 => some (.dbuf false)
    | some 1 => some (.dbuf true)
    | _ => none
  | ['.', 't', 'i', 'm', 'i', 'n', 'g'] :: b :: [','] :: c :: [] => do
    return .timing (← readNat b) (← readNat c)
  | ['.', 'f', 'i', 'r', 's', 't'] :: n :: [] => (readNat n).map .first
  | ['.', 'r', 'o', 't'] :: r :: [] => (readField 2 r).map .rot
  | _ => none

/-- One written line (30_encoding.md R65). -/
def readLine (cs : List Char) : Option WrittenLine := readWords (splitWords cs [])

/-! ## Programs -/

/-- The straps and parameters the directives set; none when they break the constraints of 00_scope.md R9. -/
def strapsOf (n : RowCount) (dbuf : Bool) (b c first : Nat) : Option Straps :=
  if h : 1 ≤ b + c ∧ 8 * (b + 2 * c) - c < 2 ^ 16 ∧ 1 ≤ first ∧ first < 2 ^ 16 then
    some ⟨n, dbuf, b, c, first, h.1, h.2.1, h.2.2.1, h.2.2.2⟩
  else none

/-- What a line adds to the script: a command word, an expiry where `TICK` stands, a value of `ROT` from this line on; a directive
about the instance adds nothing (30_encoding.md R65). R65 has no way to write a `TICK` inside an operation (95_test_vectors.md P5 does
so in a comment); that a written `TICK` always falls between two operations is the model's choice (DESIGN CHOICE, log entry 17). A
place inside an operation is given by the cuts of `Input.command`. -/
def lineInputs : WrittenLine → List Input
  | .op i _ =>
    match encode i with
    | .command w => [.command w []]
    | .event _ => [.expire]
  | .rot r => [.rot r]
  | .nrows _ => []
  | .dbuf _ => []
  | .timing _ _ => []
  | .first _ => []
  | .empty => []

/-- The straps after a line. -/
def lineStraps (p : Straps) : WrittenLine → Option Straps
  | .nrows n => strapsOf n p.dbuf p.baseLoopTicks p.callOverhead p.firstInterval
  | .dbuf b => strapsOf p.nrows b p.baseLoopTicks p.callOverhead p.firstInterval
  | .timing b c => strapsOf p.nrows p.dbuf b c p.firstInterval
  | .first n => strapsOf p.nrows p.dbuf p.baseLoopTicks p.callOverhead n
  | .op _ _ => some p
  | .rot _ => some p
  | .empty => some p

/-- Power-on of the instance a written program describes, with its operations as the script (30_encoding.md R65). -/
def loadProgram (lines : List WrittenLine) : Option State :=
  match lines.foldlM lineStraps Config.straps with
  | some p => some { State.resetWith p with inputs := lines.flatMap lineInputs }
  | none => none

/-! ## Writing -/

/-- The digits of a 16-bit value as four hexadecimal characters after `0x`. -/
def hexChars (v : Half) : List Char :=
  ['0', 'x', Nat.digitChar (v.toNat / 4096 % 16), Nat.digitChar (v.toNat / 256 % 16), Nat.digitChar (v.toNat / 16 % 16),
    Nat.digitChar (v.toNat % 16)]

/-- Decimal digits of a number below 100000, with leading zeros. -/
def decimalChars (n : Nat) : List Char :=
  [Nat.digitChar (n / 10000 % 10), Nat.digitChar (n / 1000 % 10), Nat.digitChar (n / 100 % 10), Nat.digitChar (n / 10 % 10),
    Nat.digitChar (n % 10)]

/-- A coordinate in decimal, optionally negative (30_encoding.md R65). -/
def coordChars (v : Half) : List Char :=
  if v.toInt < 0 then '-' :: decimalChars v.toInt.natAbs else decimalChars v.toInt.natAbs

/-- The written form of an operation (30_encoding.md R65). -/
def writeInstr : Instr → List Char
  | .begin => ['B', 'E', 'G', 'I', 'N']
  | .stop => ['S', 'T', 'O', 'P']
  | .setPixel x y c =>
    ['S', 'E', 'T', 'P', 'I', 'X', 'E', 'L', ' '] ++ coordChars x ++ [',', ' '] ++ coordChars y ++ [',', ' '] ++ hexChars c
  | .swapReq => ['S', 'W', 'A', 'P', 'R', 'E', 'Q']
  | .rdStat => ['R', 'D', 'S', 'T', 'A', 'T']
  | .copyFwd => ['C', 'O', 'P', 'Y', 'F', 'W', 'D']
  | .bufRd off => ['B', 'U', 'F', 'R', 'D', ' '] ++ hexChars off
  | .bufWr off v => ['B', 'U', 'F', 'W', 'R', ' '] ++ hexChars off ++ [',', ' '] ++ hexChars (v.setWidth 16)
  | .tick => ['T', 'I', 'C', 'K']

end Sys2Proof.Machine
end

