-- ==== Sys2Proof/Safety.lean ====
section
/-! DEFINITION. The terms claims are stated in: the invariant of the machine's states, runs of refresh ticks, runs of operations. -/

namespace Sys2Proof.Machine

/-- Both framebuffers are in canonical form and list no byte that does not exist (20_memory.md R35); without `DBUF` there is no
`FB[1]`. -/
structure State.BuffersFit (s : State) : Prop where
  fb0_wf : s.fb0.wf = true
  fb1_wf : s.fb1.wf = true
  fb0_within : s.fb0.within s.fbSize = true
  fb1_within : s.fb1.within s.fbSize = true
  fb1_absent : s.straps.dbuf = false → s.fb1 = []

/-- What holds of a machine between `BEGIN` and `STOP`. -/
structure State.Running (s : State) : Prop where
  /-- `row < NROWS` (10_state.md R17) -/
  row_lt : s.row.toNat < s.nrows
  /-- the timer counts, or its expiry is pending, and never both (60_exceptions.md R135) -/
  timer_xor : s.timer.run = !s.timer.pending
  /-- the interval is at least 1 (42_scan_sequencer.md R98) -/
  period_pos : 1 ≤ s.timer.period.toNat
  /-- with `DBUF` false `swapreq` stays 0 (43_buffer_control.md R129) -/
  swap_needs_dbuf : s.swapreq = true → s.straps.dbuf = true
  /-- with `DBUF` false no swap ever happens -/
  back_needs_dbuf : s.straps.dbuf = false → s.back = .fb0
  /-- the row-address lines carry a scan row, so `addr[3] = 0` with `NROWS = 8` (10_state.md R25) -/
  addr_lt : s.pins.addr.toNat < s.nrows
  /-- since the tick that moved the cursor to plane 1 they carry the cursor's row (42_scan_sequencer.md R110) -/
  addr_row : s.plane = 1 ∨ s.plane = 2 → s.pins.addr = s.row
  /-- latch and clock idle at 0 between ticks (42_scan_sequencer.md R108) -/
  lat_low : s.pins.lat = false
  clk_low : s.pins.clk = false

/-- What holds of a machine before `BEGIN` and after `STOP`: the timer stands and nothing is pending (10_state.md R34,
43_buffer_control.md R117). -/
structure State.Stopped (s : State) : Prop where
  not_run : s.timer.run = false
  not_pending : s.timer.pending = false
  none_suspended : s.suspended = none

/-- The invariant of the machine's states. -/
structure State.Inv (s : State) : Prop where
  buffers : s.BuffersFit
  running : s.active = true → s.Running
  stopped : s.active = false → s.Stopped
  /-- an interrupted operation touches only bytes that exist (20_memory.md R40) -/
  progress_exists : ∀ p, s.suspended = some p → p.todo.all (Access.exists s) = true

/-- The operations one after another. -/
def execAll : List Instr → State → Host.Outcome State Fault Refusal
  | [], s => .next s
  | i :: is, s =>
    match exec i s with
    | .next s' => execAll is s'
    | .fault r => .fault r
    | .refused r => .refused r

/-- `n` steps of the machine. -/
def steps : Nat → State → Host.Outcome State Fault Refusal
  | 0, s => .next s
  | n + 1, s =>
    match step s with
    | .next s' => steps n s'
    | .fault r => .fault r
    | .refused r => .refused r

/-- The cursor a `TICK` leaves, as the table of 42_scan_sequencer.md R99 has it. -/
def cursorAfter (n plane row : Nat) : Nat × Nat :=
  if plane < 3 then (plane + 1, row) else if row + 1 < n then (0, row + 1) else (0, 0)

/-- The tick that starts at this cursor is a frame boundary (42_scan_sequencer.md R99). -/
def State.atFrameEnd (s : State) : Bool := decide (s.plane = 3) && decide (s.row.toNat + 1 = s.nrows)

/-- The `back` a `TICK` leaves (42_scan_sequencer.md R100). -/
def State.backAfter (s : State) : Buf := if s.atFrameEnd && s.swapreq then s.back.other else s.back

/-- The buffer a `TICK` scans: the front buffer after any swap (42_scan_sequencer.md R104). -/
def State.scanned (s : State) : Buf := if s.straps.dbuf then s.backAfter.other else .fb0

/-- The events of a `TICK`, written out by the steps of 42_scan_sequencer.md R94. -/
def State.tickEvents (s : State) : List Event :=
  let c := cursorAfter s.nrows s.plane.toNat s.row.toNat
  [.blank true, .lat true]
  ++ (if c.1 = 1 then [.addr (BitVec.ofNat 4 c.2)] else [])
  ++ [.tmr (BitVec.ofNat 16 (2 ^ s.plane.toNat * (s.straps.baseLoopTicks + 2 * s.straps.callOverhead)
        - s.straps.callOverhead)), .blank false, .lat false]
  ++ (List.range 32).flatMap fun col => [.data (lineAt (s.fb s.scanned) c.1 c.2 col), .clk true, .clk false]

/-- The intervals armed in a list of events. -/
def armed (es : List Event) : List Nat :=
  es.filterMap fun e => match e with
    | .tmr d => some d.toNat
    | .blank _ => none
    | .lat _ => none
    | .addr _ => none
    | .data _ => none
    | .clk _ => none
    | .tmrStop => none

/-- The values driven on the colour lines in a list of events. -/
def linesDriven (es : List Event) : List Lines :=
  es.filterMap fun e => match e with
    | .data v => some v
    | .blank _ => none
    | .lat _ => none
    | .addr _ => none
    | .clk _ => none
    | .tmr _ => none
    | .tmrStop => none

/-- The values driven on the row-address lines in a list of events. -/
def rowsDriven (es : List Event) : List (BitVec 4) :=
  es.filterMap fun e => match e with
    | .addr v => some v
    | .blank _ => none
    | .lat _ => none
    | .data _ => none
    | .clk _ => none
    | .tmr _ => none
    | .tmrStop => none

/-- Every byte of both framebuffers reads the same in the two states. -/
def State.SameBytes (s t : State) : Prop := ∀ b off, t.memRead b off = s.memRead b off

/-- Every byte but `FB[b][off]` for the offsets in `offs` reads the same in the two states. -/
def State.SameBytesBut (s t : State) (b : Buf) (offs : List Nat) : Prop :=
  ∀ b' off, ¬ (b' = b ∧ off ∈ offs) → t.memRead b' off = s.memRead b' off

/-- Everything but the framebuffers, the response port and the model's own schedule is the same in the two states: the cursor, the
flags, the pins, the timer, `Out`, `ROT`, the straps. -/
structure State.SameControl (s t : State) : Prop where
  straps : t.straps = s.straps
  rot : t.rot = s.rot
  active : t.active = s.active
  plane : t.plane = s.plane
  row : t.row = s.row
  swapreq : t.swapreq = s.swapreq
  back : t.back = s.back
  pins : t.pins = s.pins
  timer : t.timer = s.timer
  out : t.out = s.out

end Sys2Proof.Machine
end

