-- ==== Sys2Proof/Certificates/Slice0/Obligations.lean ====
section
/-! DEFINITION. What is claimed of BCMSEQ, for every state, operand and admitted instance. Statements only. -/

open Sys2Proof Sys2Proof.Machine

/-! ## Encoding -/

/-- Every operation, with every operand at every value its fields admit, is decoded from its encoding (30_encoding.md R59 to R61). -/
def Obligations.DecodeInvertsEncode : Prop :=
  ∀ i : Instr, decode (encode i) = .ok i

/-- A command word that selects an operation with these operands is the only word that does, since unused fields are zero, and no word
selects two rows of the operation table (30_encoding.md R61). -/
def Obligations.EncodeInvertsDecodeCommand : Prop :=
  (∀ (w : CmdWord) (i : Instr), decodeCommand w = .ok i → encode i = .command w) ∧
  ∀ w : CmdWord, (commandTable.filter fun r => r.selects w).length ≤ 1

/-- The written form of an operation (30_encoding.md R65), in the spelling the model chose for it (zero-padded decimals, hexadecimal
digits in lower case: DESIGN CHOICE, log entry 17), reads back as that operation, whatever its operands. -/
def Obligations.WrittenFormReadsBack : Prop :=
  ∀ i : Instr, readLine (writeInstr i) = some (.op i none)

/-- Words written out in the spec's own tables decode to their operations (95_test_vectors.md sections 2.2, 3.4, 4). -/
def Obligations.SampleWordsDecode : Prop :=
  decodeCommand 0x1000000000000 = .ok .begin ∧ decodeCommand 0x2000000000000 = .ok .stop ∧
  decodeCommand 0x300000008F800 = .ok (.setPixel 0 8 0xF800) ∧ decodeCommand 0x3FFFF0000FFFF = .ok (.setPixel (-1) 0 0xFFFF) ∧
  decodeCommand 0x4000000000000 = .ok .swapReq ∧ decodeCommand 0x5000000000000 = .ok .rdStat ∧
  decodeCommand 0x6000000000000 = .ok .copyFwd ∧ decodeCommand 0x7017A00000000 = .ok (.bufRd 378) ∧
  decodeCommand 0x8004000000005 = .ok (.bufWr 64 0x05) ∧ decodeEvent 1 = .ok .tick

/-- A reserved command word is refused, by the name that says why, and every operand of `SETPIXEL` is legal
(30_encoding.md R63). -/
def Obligations.ReservedWordsRefused : Prop :=
  (∀ (s : State) (w : CmdWord) (cuts : List Nat) (rest : List Input), s.tickDue = false → s.suspended = none →
    s.inputs = .command w cuts :: rest →
      ((cmdOp w = 0 ∨ 9 ≤ (cmdOp w).toNat) → step s = .refused (.reserved .reservedOpcode)) ∧
      (¬ (cmdOp w = 0 ∨ 9 ≤ (cmdOp w).toNat) → (∀ i, encode i ≠ .command w) →
        step s = .refused (.reserved .unusedFieldNotZero))) ∧
  ∀ x y c : Half, decodeCommand (cmdWord 3 x y c) = .ok (.setPixel x y c)

/-! ## The step and the agents -/

/-- A presented command word runs the operation it selects: no `TICK` is due, no host operation is in progress, the word is taken
from the port with the places of the expiries inside it (the model's script, log entries 6, 7). -/
def Obligations.StepRunsPresentedCommand : Prop :=
  ∀ (s : State) (w : CmdWord) (cuts : List Nat) (rest : List Input) (i : Instr),
    s.tickDue = false → s.suspended = none → s.inputs = .command w cuts :: rest → decodeCommand w = .ok i →
      step s = exec i { s with inputs := rest, preempt := cuts }

/-- With `active = 1` and `tmr_pending = 1` the next step is the `TICK`, whatever the host is doing (60_exceptions.md R134, R137). -/
def Obligations.StepTakesPendingTickFirst : Prop :=
  ∀ s : State, s.active = true → s.timer.pending = true → step s = exec .tick s

/-- When no `TICK` is due an interrupted host operation continues with its next access, and no command is taken before it is done
(60_exceptions.md R138, 10_state.md R29). The spec's rule R138 is its own inference. -/
def Obligations.StepResumesInterruptedOperation : Prop :=
  ∀ (s : State) (p : Progress), s.tickDue = false → s.suspended = some p → p.todo.all (Access.exists s) = true →
    step s = .next (hostRun p.todo s.preempt p.held { s with suspended := none })

/-- `EXPIRE`: a running timer stops and its expiry is pending, nothing else changes; a stopped timer does not expire
(60_exceptions.md R141). Where the expiry falls is the script's choice (log entries 6, 8). -/
def Obligations.TimerExpiresOnce : Prop :=
  ∀ s : State, s.tickDue = false → s.suspended = none →
    (∀ rest, s.inputs = .expire :: rest → s.timer.run = true →
      step s = .next { s with inputs := rest, timer := { s.timer with run := false, pending := true } }) ∧
    (∀ rest, s.inputs = .expire :: rest → s.timer.run = false → step s = .next { s with inputs := rest }) ∧
    (s.inputs = [] → s.timer.run = true →
      step s = .next { s with timer := { s.timer with run := false, pending := true } }) ∧
    (s.inputs = [] → s.timer.run = false → step s = .next s)

/-- An operation-table word stored by `withFetchWord` is what the very next step runs, and the framebuffers, the cursor, `Out` and
the straps are as they were (the model's interface, log entry 11). -/
def Obligations.StoredWordRunsNext : Prop :=
  ∀ (s : State) (nbits w : Nat) (i : Instr), decodeTableWord nbits w = some i →
    ∃ s' : State, step (s.withFetchWord nbits w) = exec i s' ∧ s'.fb0 = s.fb0 ∧ s'.fb1 = s.fb1 ∧ s'.plane = s.plane ∧
      s'.row = s.row ∧ s'.back = s.back ∧ s'.out = s.out ∧ s'.straps = s.straps ∧ s'.inputs = s.inputs

/-! ## Reset, BEGIN, STOP -/

/-- What the spec fixes at power-on (10_state.md R34, 70_reset_and_hazards.md R151), for every admitted instance; the other values
are the model's (log entries 1 to 4, 13) and not stated. -/
def Obligations.PowerOnValues : Prop :=
  (∀ p : Straps, (State.resetWith p).active = false ∧ (State.resetWith p).timer.run = false ∧
    (State.resetWith p).timer.pending = false ∧ (State.resetWith p).out = []) ∧
  ∃ p : Straps, State.reset = State.resetWith p

/-- `BEGIN` from any inactive state leaves the column "after `BEGIN`" of 10_state.md R34, by the steps of 43_buffer_control.md R115. -/
def Obligations.BeginInitialises : Prop :=
  decode (.command 0x1000000000000) = .ok .begin ∧
  (∀ s : State, s.active = true → exec .begin s = .refused .alreadyActive) ∧
  ∀ s : State, s.active = false → s.fb0.wf = true → s.fb1.wf = true →
    ∃ t, exec .begin s = .next t ∧ t.active = true ∧ t.plane = 3 ∧ t.row.toNat + 1 = s.nrows ∧ t.swapreq = false ∧
      t.back = .fb0 ∧ t.pins = ⟨true, false, false, 0, 0⟩ ∧ t.timer.period.toNat = s.straps.firstInterval ∧
      t.timer.run = true ∧ t.timer.pending = false ∧
      t.out = s.out ++ [.blank true, .lat false, .clk false, .addr 0, .data 0,
        .tmr (BitVec.ofNat 16 s.straps.firstInterval)] ∧
      (∀ b off, s.hasByte b off = true → t.memRead b off = 0) ∧
      (∀ b off, s.hasByte b off = false → t.memRead b off = s.memRead b off) ∧
      t.straps = s.straps ∧ t.rot = s.rot ∧ t.inputs = s.inputs ∧ t.suspended = s.suspended ∧ t.preempt = s.preempt ∧
      t.rspValid = false

/-- `STOP` followed by `BEGIN` is the same as power-on followed by `BEGIN`, "except that `Out` keeps growing"
(70_reset_and_hazards.md R152): from any inactive state of the invariant `BEGIN` leaves what it leaves at power-on, but for `Out`,
the inputs from outside, and the undriven response port. -/
def Obligations.BeginIsFullReinitialisation : Prop :=
  ∀ s : State, s.Inv → s.active = false →
    ∃ t r, exec .begin s = .next t ∧ exec .begin (State.resetWith s.straps) = .next r ∧
      t = { r with rot := s.rot, out := s.out ++ r.out, rsp := t.rsp, undriven := t.undriven, preempt := s.preempt,
                   inputs := s.inputs }

/-- `STOP` (43_buffer_control.md R117; the whole operation is the spec's decision D18): the timer stops and nothing is pending, the
panel is blanked, `active <- 0`, all other state keeps its value; afterwards no `TICK` is due and every operation but `BEGIN` is
refused. The response port is left undriven (30_encoding.md R62), in the form the model chose for that (the free value
`Config.undrivenRsp` on the counter `undriven`: DESIGN CHOICE, log entry 4). -/
def Obligations.StopShutsDown : Prop :=
  decode (.command 0x2000000000000) = .ok .stop ∧
  (∀ s : State, s.active = false → exec .stop s = .refused .notActive) ∧
  ∀ s : State, s.active = true →
    ∃ t, exec .stop s = .next t ∧
      t = { s with
        active := false
        pins := { s.pins with blank := true }
        timer := { s.timer with run := false, pending := false }
        out := s.out ++ [.tmrStop, .blank true]
        rsp := Config.undrivenRsp s.undriven
        rspValid := false
        undriven := s.undriven + 1 } ∧
      t.tickDue = false ∧ ∀ i, i ≠ .begin → ∃ r, exec i t = .refused r

/-- Only `BEGIN` makes an inactive machine active (70_reset_and_hazards.md R152), and until then the cursor, `back`, `swapreq`, the
pins, the armed interval and `Out` stand still. -/
def Obligations.OnlyBeginActivates : Prop :=
  ∀ s t : State, s.active = false → step s = .next t →
    (t.active = true → ∃ cuts rest, s.inputs = .command 0x1000000000000 cuts :: rest) ∧
    (t.active = false → t.plane = s.plane ∧ t.row = s.row ∧ t.back = s.back ∧ t.swapreq = s.swapreq ∧ t.pins = s.pins ∧
      t.timer.period = s.timer.period ∧ t.out = s.out)

/-- The three refused situations (43_buffer_control.md R128, decision D17). -/
def Obligations.RefusedSituations : Prop :=
  (∀ (s : State) (i : Instr), s.active = false → i ≠ .begin → ∃ r, exec i s = .refused r) ∧
  (∀ s : State, s.active = true → exec .begin s = .refused .alreadyActive) ∧
  ∀ (s : State) (off : Half) (v : Byte), s.active = true → s.fbSize ≤ off.toNat →
    exec (.bufRd off) s = .refused .offsetOutsideBuffer ∧ exec (.bufWr off v) s = .refused .offsetOutsideBuffer

/-! ## The response port -/

/-- The response port (30_encoding.md R62): `RDSTAT` and `BUFRD` drive it, after any other operation it is not driven. -/
def Obligations.ResponsePortDriven : Prop :=
  ∀ (s t : State) (i : Instr), exec i s = .next t →
    (i = .rdStat → t.rspValid = true ∧ t.rsp = if s.swapreq then 1 else 0) ∧
    (∀ off, i = .bufRd off → t.rspValid = true ∧ t.rsp = s.memRead s.bk off.toNat) ∧
    (i ≠ .rdStat → (∀ off, i ≠ .bufRd off) → t.rspValid = false)

/-! ## The handshake and the buffers -/

/-- `SWAPREQ` (43_buffer_control.md R119): `swapreq` is set with `DBUF`, kept without. The response port is left undriven
(30_encoding.md R62), in the form the model chose for that (DESIGN CHOICE, log entry 4). -/
def Obligations.SwapReqSetsFlag : Prop :=
  decode (.command 0x4000000000000) = .ok .swapReq ∧
  (∀ s : State, s.active = false → exec .swapReq s = .refused .notActive) ∧
  ∀ s : State, s.active = true →
    exec .swapReq s = .next { s with
      swapreq := s.straps.dbuf || s.swapreq
      rsp := Config.undrivenRsp s.undriven
      rspValid := false
      undriven := s.undriven + 1 }

/-- `RDSTAT` (43_buffer_control.md R120): the response is the flag, no other state changes. -/
def Obligations.RdStatReadsFlag : Prop :=
  decode (.command 0x5000000000000) = .ok .rdStat ∧
  ∀ s : State, s.active = true →
    exec .rdStat s = .next { s with rsp := if s.swapreq then 1 else 0, rspValid := true }

/-- `COPYFWD` that no expiry interrupts (43_buffer_control.md R121): with `DBUF` every byte of the back buffer becomes the front
buffer's, and no other byte changes; without it no byte does. -/
def Obligations.CopyFwdCopiesFrontToBack : Prop :=
  decode (.command 0x6000000000000) = .ok .copyFwd ∧
  (∀ s : State, s.active = false → exec .copyFwd s = .refused .notActive) ∧
  ∀ s : State, s.active = true → s.preempt = [] → s.fb0.wf = true → s.fb1.wf = true →
    ∃ t, exec .copyFwd s = .next t ∧ s.SameControl t ∧ t.suspended = s.suspended ∧ t.inputs = s.inputs ∧
      (s.straps.dbuf = true → (∀ off, off < s.fbSize → t.memRead s.bk off = s.memRead s.fr off) ∧
        ∀ b off, ¬ (b = s.bk ∧ off < s.fbSize) → t.memRead b off = s.memRead b off) ∧
      (s.straps.dbuf = false → s.SameBytes t)

/-- `BUFRD off` (43_buffer_control.md R123): the response is the byte of the back buffer, no other state of the machine changes; refused
while inactive or with the offset outside the buffer. That the model's own schedule `preempt` is emptied is its choice (DESIGN CHOICE,
log entry 7). -/
def Obligations.BufRdReadsBackBuffer : Prop :=
  (∀ off : Half, decode (.command (cmdWord 7 off 0 0)) = .ok (.bufRd off)) ∧
  (∀ (s : State) (off : Half), s.active = false ∨ s.fbSize ≤ off.toNat → ∃ r, exec (.bufRd off) s = .refused r) ∧
  ∀ (s : State) (off : Half), s.active = true → off.toNat < s.fbSize →
    exec (.bufRd off) s = .next { s with rsp := s.memRead s.bk off.toNat, rspValid := true, preempt := [] }

/-- `BUFWR off, v` (43_buffer_control.md R124): one byte of the back buffer is written, nothing else of the machine changes; refused
while inactive or with the offset outside the buffer. -/
def Obligations.BufWrWritesOneByte : Prop :=
  (∀ (off : Half) (v : Byte), decode (.command (cmdWord 8 off 0 (0#8 ++ v))) = .ok (.bufWr off v)) ∧
  (∀ (s : State) (off : Half) (v : Byte), s.active = false ∨ s.fbSize ≤ off.toNat → ∃ r, exec (.bufWr off v) s = .refused r) ∧
  ∀ (s : State) (off : Half) (v : Byte), s.active = true → off.toNat < s.fbSize → s.fb0.wf = true → s.fb1.wf = true →
    ∃ t, exec (.bufWr off v) s = .next t ∧ t.memRead s.bk off.toNat = v ∧ s.SameBytesBut t s.bk [off.toNat] ∧
      s.SameControl t ∧ t.suspended = s.suspended ∧ t.inputs = s.inputs

/-- A byte reads as the last value written to it (20_memory.md R42, R43): `BUFWR` then `BUFRD` of the same offset. -/
def Obligations.WriteThenReadReturnsValue : Prop :=
  ∀ (s t : State) (off : Half) (v : Byte), s.fb0.wf = true → s.fb1.wf = true → exec (.bufWr off v) s = .next t →
    ∃ u, exec (.bufRd off) t = .next u ∧ u.rsp = v ∧ u.rspValid = true ∧ t.SameBytes u

/-- The host never writes the front buffer (20_memory.md R37): with `DBUF` true, an operation other than `BEGIN` leaves the buffer
that is the front buffer when it runs as it is, interrupted or not. -/
def Obligations.HostNeverWritesFrontBuffer : Prop :=
  ∀ (s t : State) (i : Instr), s.straps.dbuf = true → i ≠ .begin → exec i s = .next t → t.fb s.fr = s.fb s.fr

/-- Single-buffer alias (43_buffer_control.md R129, the spec's own inference): without `DBUF` both roles are `FB[0]`, `swapreq` is 0,
`SWAPREQ`, `COPYFWD` and `SWAPBUFFERS` change no state, `RDSTAT` returns 0x00. What the port and the schedule `preempt` become is the
model's form (DESIGN CHOICE, log entries 4, 7). -/
def Obligations.SingleBufferAlias : Prop :=
  ∀ s : State, s.Inv → s.active = true → s.straps.dbuf = false →
    s.bk = .fb0 ∧ s.fr = .fb0 ∧ s.swapreq = false ∧
    exec .swapReq s = .next s.undriveRsp ∧ exec .copyFwd s = .next { s.undriveRsp with preempt := [] } ∧
    exec .rdStat s = .next (s.respond 0) ∧
    ∀ copy between late, swapBuffers copy between late s = .next ⟨s, true⟩

/-! ## The address decoder -/

/-- The decoder's formulas: the base (40_address_decoder.md R71), planes 1 to 3 (R72), plane 0 (R73). -/
def Obligations.DecoderFormulas : Prop :=
  (∀ row col, fbBase row col = row * 96 + col) ∧
  (∀ row col p (ch : Channel), 1 ≤ p →
    fbAddr .top row col p ch = (row * 96 + col + (p - 1) * 32, 2 + ch.num) ∧
    fbAddr .bottom row col p ch = (row * 96 + col + (p - 1) * 32, 5 + ch.num)) ∧
  ∀ row col,
    fbAddr .top row col 0 .red = (row * 96 + col + 64, 0) ∧ fbAddr .top row col 0 .green = (row * 96 + col + 64, 1) ∧
    fbAddr .top row col 0 .blue = (row * 96 + col + 32, 0) ∧ fbAddr .bottom row col 0 .red = (row * 96 + col + 32, 1) ∧
    fbAddr .bottom row col 0 .green = (row * 96 + col, 0) ∧ fbAddr .bottom row col 0 .blue = (row * 96 + col, 1)

/-- Every pixel bit lies in a byte of the buffer (20_memory.md R40, 40_address_decoder.md R78). -/
def Obligations.DecoderStaysInBuffer : Prop :=
  ∀ (n : RowCount) (half : HalfPanel) (row col p : Nat) (ch : Channel), row < n.toNat → col < 32 → p < 4 →
    (fbAddr half row col p ch).1 < n.fbSize ∧ (fbAddr half row col p ch).2 < 8

/-- The decoder is a bijection from pixel bits onto storage bits (40_address_decoder.md R74, the spec's own inference). -/
def Obligations.DecoderBijective : Prop :=
  ∀ (n : RowCount) (off bit : Nat), off < n.fbSize → bit < 8 →
    ∃! a : HalfPanel × Nat × Nat × Nat × Channel,
      a.2.1 < n.toNat ∧ a.2.2.1 < 32 ∧ a.2.2.2.1 < 4 ∧ fbAddr a.1 a.2.1 a.2.2.1 a.2.2.2.1 a.2.2.2.2 = (off, bit)

/-- Scan side and packing side are two uses of one decoder (40_address_decoder.md R77, the spec's own inference): colour line
`data[3*half + ch]` carries the bit at `FbAddr(half, row, col, plane, ch)`. -/
def Obligations.ScanAgreesWithDecoder : Prop :=
  ∀ (m : Memory) (plane row col : Nat) (half : HalfPanel) (ch : Channel), plane < 4 →
    (lineAt m plane row col).getLsbD (3 * half.num + ch.num)
      = (m.read (fbAddr half row col plane ch).1).getLsbD (fbAddr half row col plane ch).2

/-- The scan line, bit by bit (42_scan_sequencer.md R105, R106; the pin map is the spec's decision D4). -/
def Obligations.LineFormulas : Prop :=
  (∀ (m : Memory) (plane row col k : Nat), 1 ≤ plane → k < 6 →
    (lineAt m plane row col).getLsbD k = (m.read (row * 96 + (plane - 1) * 32 + col)).getLsbD (k + 2)) ∧
  ∀ (m : Memory) (row col : Nat),
    (lineAt m 0 row col).getLsbD 0 = (m.read (row * 96 + col + 64)).getLsbD 0 ∧
    (lineAt m 0 row col).getLsbD 1 = (m.read (row * 96 + col + 64)).getLsbD 1 ∧
    (lineAt m 0 row col).getLsbD 2 = (m.read (row * 96 + col + 32)).getLsbD 0 ∧
    (lineAt m 0 row col).getLsbD 3 = (m.read (row * 96 + col + 32)).getLsbD 1 ∧
    (lineAt m 0 row col).getLsbD 4 = (m.read (row * 96 + col)).getLsbD 0 ∧
    (lineAt m 0 row col).getLsbD 5 = (m.read (row * 96 + col)).getLsbD 1

/-! ## SETPIXEL -/

/-- Truncation of a colour (41_pixel_writer.md R84). -/
def Obligations.ColourTruncation : Prop :=
  ∀ c : Half, (truncateColor c).r.toNat = c.toNat / 2 ^ 12 ∧ (truncateColor c).g.toNat = c.toNat / 2 ^ 7 % 16 ∧
    (truncateColor c).b.toNat = c.toNat / 2 % 16

/-- "Out-of-range `(x,y)` is a silent no-op (not an error)" (41_pixel_writer.md R82), against the extent of R81: no byte, flag, pin or
event changes and no response is driven. What the undriven port and the schedule `preempt` become is the model's form (DESIGN CHOICE,
log entries 4, 7). -/
def Obligations.SetPixelOutOfRangeIsNoOp : Prop :=
  ∀ (s : State) (x y c : Half) (lw lh : Int), s.active = true →
    (s.rot = 0 ∨ s.rot = 2 → lw = 32 ∧ lh = 2 * s.nrows) → (s.rot = 1 ∨ s.rot = 3 → lw = 2 * s.nrows ∧ lh = 32) →
    (x.toInt < 0 ∨ lw ≤ x.toInt ∨ y.toInt < 0 ∨ lh ≤ y.toInt) →
      exec (.setPixel x y c) s = .next { s with
        rsp := Config.undrivenRsp s.undriven
        rspValid := false
        undriven := s.undriven + 1
        preempt := [] }

/-- Rotation maps the logical extent one-to-one onto the panel (41_pixel_writer.md R83, an inference of the spec from R81). -/
def Obligations.RotationOneToOne : Prop :=
  ∀ (n : RowCount) (rot : BitVec 2),
    (∀ x y, x < (logicalExtent n rot).1 → y < (logicalExtent n rot).2 →
      (rotate n rot x y).1 < 32 ∧ (rotate n rot x y).2 < 2 * n.toNat) ∧
    ∀ px py, px < 32 → py < 2 * n.toNat →
      ∃! a : Nat × Nat, a.1 < (logicalExtent n rot).1 ∧ a.2 < (logicalExtent n rot).2 ∧ rotate n rot a.1 a.2 = (px, py)

/-- The round-trip property (41_pixel_writer.md R88, the spec's own inference): after an in-range `SETPIXEL` that no expiry interrupts,
unpacking the rotated pixel gives the truncated colour, and every other bit of either buffer is unchanged. -/
def Obligations.SetPixelRoundTrip : Prop :=
  ∀ (s : State) (x y c : Half) (px py : Nat), s.active = true → s.preempt = [] → s.fb0.wf = true → s.fb1.wf = true →
    inBounds s.straps.nrows s.rot x y = true → rotate s.straps.nrows s.rot x.toNat y.toNat = (px, py) →
    ∃ t, exec (.setPixel x y c) s = .next t ∧
      unpack s.straps.nrows (t.fb s.bk) px py = ⟨c.extractLsb' 12 4, c.extractLsb' 7 4, c.extractLsb' 1 4⟩ ∧
      ∀ b off bit, ¬ (b = s.bk ∧ ∃ p ch, p < 4 ∧
          fbAddr (halfOf s.straps.nrows py) (scanRowOf s.straps.nrows py) px p ch = (off, bit)) →
        (t.memRead b off).getLsbD bit = (s.memRead b off).getLsbD bit

/-- What an in-range `SETPIXEL` that no expiry interrupts stores to and leaves (41_pixel_writer.md R79, R86): at most the three bytes at
the pixel's base, base + 32 and base + 64 of the back buffer; all control state stays, and the buffers keep their form. -/
def Obligations.SetPixelTouchesThreeBytes : Prop :=
  ∀ (s : State) (x y c : Half) (base : Nat), s.active = true → s.preempt = [] → s.BuffersFit →
    inBounds s.straps.nrows s.rot x y = true →
    fbBase (scanRowOf s.straps.nrows (rotate s.straps.nrows s.rot x.toNat y.toNat).2)
      (rotate s.straps.nrows s.rot x.toNat y.toNat).1 = base →
    ∃ t, exec (.setPixel x y c) s = .next t ∧ s.SameBytesBut t s.bk [base, base + 32, base + 64] ∧ s.SameControl t ∧
      t.suspended = s.suspended ∧ t.inputs = s.inputs ∧ t.BuffersFit

/-- The discarded colour bits `c[11]`, `c[6:5]`, `c[0]` "have no effect on any state" (30_encoding.md R52, the spec's own
inference). -/
def Obligations.DiscardedColourBitsHaveNoEffect : Prop :=
  ∀ (s : State) (x y c c' : Half), c &&& 0xF79E = c' &&& 0xF79E → exec (.setPixel x y c) s = exec (.setPixel x y c') s

/-- "Same pixel written twice: the second write wins" (41_pixel_writer.md R89, the spec's own inference). -/
def Obligations.LastPixelWriteWins : Prop :=
  ∀ (s t : State) (x y c c' : Half), s.BuffersFit → s.preempt = [] → exec (.setPixel x y c) s = .next t →
    ∃ u v, exec (.setPixel x y c') t = .next u ∧ exec (.setPixel x y c') s = .next v ∧ u.fb0 = v.fb0 ∧ u.fb1 = v.fb1

/-- `FILLSCREEN c` (41_pixel_writer.md R90): whatever `ROT` is, every pixel of the back buffer holds the truncated colour, and the other
buffer and all control state are unchanged. -/
def Obligations.FillScreenSetsEveryPixel : Prop :=
  ∀ (s : State) (c : Half), s.active = true → s.preempt = [] → s.BuffersFit →
    ∃ t, execAll (fillScreen s.straps.nrows s.rot c) s = .next t ∧ s.SameControl t ∧
      (∀ px py, px < 32 → py < 2 * s.nrows → unpack s.straps.nrows (t.fb s.bk) px py = truncateColor c) ∧
      ∀ b, b ≠ s.bk → t.fb b = s.fb b

/-- The fill fast path (41_pixel_writer.md R91, the spec's own inference): black fills the back buffer with 0x00, white with 0xFF. -/
def Obligations.FillScreenFastPath : Prop :=
  ∀ s : State, s.active = true → s.preempt = [] → s.BuffersFit →
    (∃ t, execAll (fillScreen s.straps.nrows s.rot 0x0000) s = .next t ∧
      ∀ off, off < s.fbSize → t.memRead s.bk off = 0x00) ∧
    ∃ t, execAll (fillScreen s.straps.nrows s.rot 0xFFFF) s = .next t ∧
      ∀ off, off < s.fbSize → t.memRead s.bk off = 0xFF

/-! ## The interrupt inside a host operation -/

/-- Entry to the interrupt inside a `SETPIXEL` (60_exceptions.md R136, 20_memory.md R44 item 3): the operation is suspended between two
of its byte accesses with its progress kept; nothing else is saved or switched; the next step is the `TICK`. Where the expiry falls
is the script's choice (log entry 7). -/
def Obligations.ExpirySuspendsSetPixel : Prop :=
  ∀ (s : State) (x y c : Half) (k : Nat) (ks : List Nat), s.active = true → s.timer.run = true →
    inBounds s.straps.nrows s.rot x y = true → s.preempt = k :: ks → k < 11 →
    ∃ t h, exec (.setPixel x y c) s = .next t ∧
      t.suspended = some ⟨h, (s.setPixelAccesses x y c).drop (k + 1)⟩ ∧ t.preempt = ks ∧
      t.timer = { s.timer with run := false, pending := true } ∧ t.active = s.active ∧ t.plane = s.plane ∧ t.row = s.row ∧
      t.swapreq = s.swapreq ∧ t.back = s.back ∧ t.pins = s.pins ∧ t.out = s.out ∧ step t = exec .tick t

/-- "The final contents of `FB[b]` are the same whatever ticks intervene" (41_pixel_writer.md R87, the spec's own inference; R138 for the
completion), for every host operation: let it run interrupted as the script likes (the script's cuts are the model's, DESIGN CHOICE, log entry 7);
it completes, and when it has, both buffers are
what the uninterrupted operation leaves. -/
def Obligations.InterruptedOperationSameMemory : Prop :=
  ∀ (s a t0 : State) (i : Instr), s.Inv → s.active = true → s.timer.pending = false → s.suspended = none →
    exec i { s with preempt := [] } = .next a → exec i s = .next t0 →
    (∃ n t, steps n t0 = .next t ∧ t.suspended = none ∧ t.inputs = s.inputs) ∧
    ∀ n t, steps n t0 = .next t → t.suspended = none → t.inputs = s.inputs → t.fb0 = a.fb0 ∧ t.fb1 = a.fb1

/-! ## TICK -/

/-- `TICK` as a whole (42_scan_sequencer.md R94 to R108): every register, the event sequence, and that nothing else changes. The response
port is left undriven (DEDUCED, log entry 5) in the form of log entry 4 (DESIGN CHOICE). -/
def Obligations.TickSweepsOneLine : Prop :=
  decode (.event 1) = .ok .tick ∧
  ∀ s : State, s.active = true → s.timer.pending = true → s.row.toNat < s.nrows →
    exec .tick s = .next { s with
      plane := BitVec.ofNat 2 (cursorAfter s.nrows s.plane.toNat s.row.toNat).1
      row := BitVec.ofNat 4 (cursorAfter s.nrows s.plane.toNat s.row.toNat).2
      swapreq := s.swapreq && !s.atFrameEnd
      back := s.backAfter
      pins := {
        blank := false
        lat := false
        clk := false
        addr := if s.plane = 0 then s.row else s.pins.addr
        data := lineAt (s.fb s.scanned) (cursorAfter s.nrows s.plane.toNat s.row.toNat).1
          (cursorAfter s.nrows s.plane.toNat s.row.toNat).2 31 }
      timer := {
        period := BitVec.ofNat 16 (2 ^ s.plane.toNat * (s.straps.baseLoopTicks + 2 * s.straps.callOverhead)
          - s.straps.callOverhead)
        run := true
        pending := false }
      out := s.out ++ s.tickEvents
      rsp := Config.undrivenRsp s.undriven
      rspValid := false
      undriven := s.undriven + 1 }

/-- `TICK` exists only with its event (42_scan_sequencer.md R95, R114); a due one with `row >= NROWS`, which the invariant rules out,
stops on bytes that do not exist (the model's fault, log entry 10). -/
def Obligations.TickOnlyOnItsEvent : Prop :=
  (∀ s : State, ¬ (s.active = true ∧ s.timer.pending = true) → exec .tick s = .refused .noTickEvent) ∧
  ∀ s : State, s.active = true → s.timer.pending = true → s.nrows ≤ s.row.toNat → exec .tick s = .fault .noSuchByte

/-- Step 2: the interval armed is that of the plane at entry (42_scan_sequencer.md R97), and it fits its register (R98). -/
def Obligations.TickArmsDurationOfEntryPlane : Prop :=
  ∀ s : State, s.active = true → s.timer.pending = true → s.row.toNat < s.nrows →
    ∃ t, exec .tick s = .next t ∧
      t.timer.period.toNat = ((s.straps.baseLoopTicks + 2 * s.straps.callOverhead) <<< s.plane.toNat) - s.straps.callOverhead ∧
      1 ≤ t.timer.period.toNat ∧ t.timer.run = true

/-- Step 3: the cursor advances by exactly one step, plane first (42_scan_sequencer.md R99). -/
def Obligations.TickAdvancesCursor : Prop :=
  ∀ s : State, s.active = true → s.timer.pending = true → s.row.toNat < s.nrows →
    ∃ t, exec .tick s = .next t ∧
      (s.plane.toNat < 3 → t.plane.toNat = s.plane.toNat + 1 ∧ t.row = s.row) ∧
      (s.plane.toNat = 3 → s.row.toNat + 1 < s.nrows → t.plane = 0 ∧ t.row.toNat = s.row.toNat + 1) ∧
      (s.plane.toNat = 3 → s.row.toNat + 1 = s.nrows → t.plane = 0 ∧ t.row = 0)

/-- The swap happens at the frame boundary and nowhere else, and the line of the same tick comes from the buffer that is then the front
buffer (42_scan_sequencer.md R100). No byte moves. -/
def Obligations.SwapOnlyAtFrameBoundary : Prop :=
  ∀ s : State, s.active = true → s.timer.pending = true → s.row.toNat < s.nrows →
    ∃ t es, exec .tick s = .next t ∧ t.fb0 = s.fb0 ∧ t.fb1 = s.fb1 ∧ t.out = s.out ++ es ∧
      linesDriven es = (List.range 32).map (lineAt (s.fb t.fr) t.plane.toNat t.row.toNat) ∧
      (s.plane = 3 ∧ s.row.toNat + 1 = s.nrows ∧ s.swapreq = true → t.back = s.back.other ∧ t.swapreq = false) ∧
      (¬ (s.plane = 3 ∧ s.row.toNat + 1 = s.nrows ∧ s.swapreq = true) → t.back = s.back ∧ t.swapreq = s.swapreq)

/-- Step 4: the row address is driven in the tick whose new plane is 1, once, while the panel is blanked, and in no other tick
(42_scan_sequencer.md R102). -/
def Obligations.RowAddressDrivenOncePerRow : Prop :=
  ∀ s : State, s.active = true → s.timer.pending = true → s.row.toNat < s.nrows →
    ∃ t es, exec .tick s = .next t ∧ t.out = s.out ++ es ∧
      (t.plane = 1 → t.row = s.row ∧ t.pins.addr = t.row ∧ rowsDriven es = [t.row] ∧
        es.take 3 = [.blank true, .lat true, .addr t.row]) ∧
      (t.plane ≠ 1 → t.pins.addr = s.pins.addr ∧ rowsDriven es = [])

/-- "Nothing in a tick depends on the values of `blank`, `lat`, `clk`, `addr`, `data` or `tmr_period` at entry"
(42_scan_sequencer.md R114, the spec's own inference). -/
def Obligations.TickIgnoresPinsAtEntry : Prop :=
  ∀ (s : State) (p : Pins) (d : BitVec 16), s.active = true → s.timer.pending = true → s.row.toNat < s.nrows →
    ∃ t u, exec .tick s = .next t ∧ exec .tick { s with pins := p, timer := { s.timer with period := d } } = .next u ∧
      u = { t with pins := { t.pins with addr := u.pins.addr } } ∧ (t.plane = 1 → u = t)

/-- The binary code modulation figures (42_scan_sequencer.md R111, 70_reset_and_hazards.md R164; the spec's own inferences). -/
def Obligations.DurationsDouble : Prop :=
  ∀ p : Straps,
    (∀ k, k < 3 → duration p (k + 1) = 2 * (duration p k + p.callOverhead) - p.callOverhead) ∧
    (∀ k, k < 4 → 1 ≤ duration p k ∧ duration p k < 2 ^ 16) ∧
    rowTicks p = 15 * p.baseLoopTicks + 26 * p.callOverhead ∧
    frameTicks p = p.nrows.toNat * (15 * p.baseLoopTicks + 26 * p.callOverhead) ∧
    (∀ k, duration p k + p.callOverhead = expirySpacing p k) ∧
    frameSpacing p = p.nrows.toNat * 15 * (p.baseLoopTicks + 2 * p.callOverhead)

/-- A frame (42_scan_sequencer.md R101, the spec's own inference): `4*NROWS` expiries, each with its tick, bring the cursor back, touch
no byte, and arm intervals whose sum is `NROWS*(15*B + 26*C)`. -/
def Obligations.FrameIsFourNRowsTicks : Prop :=
  ∀ s : State, s.Inv → s.active = true → s.timer.run = true →
    ∃ t es, refresh (4 * s.nrows) s = .next t ∧ t.plane = s.plane ∧ t.row = s.row ∧ t.fb0 = s.fb0 ∧ t.fb1 = s.fb1 ∧
      t.out = s.out ++ es ∧ (armed es).length = 4 * s.nrows ∧
      (armed es).sum = s.nrows * (15 * s.straps.baseLoopTicks + 26 * s.straps.callOverhead)

/-- A swap request is consumed within `4*NROWS` ticks, exactly once, and stands until then (20_memory.md R47, 42_scan_sequencer.md R101;
the spec's own inferences). -/
def Obligations.SwapConsumedWithinOneFrame : Prop :=
  ∀ s : State, s.Inv → s.active = true → s.timer.run = true → s.swapreq = true →
    ∃ k t, k ≤ 4 * s.nrows ∧ refresh k s = .next t ∧ t.swapreq = false ∧ t.back = s.back.other ∧
      t.fb0 = s.fb0 ∧ t.fb1 = s.fb1 ∧
      ∀ j u, j < k → refresh j s = .next u → u.swapreq = true ∧ u.back = s.back

/-- What `SWAPBUFFERS` guarantees (43_buffer_control.md R127, R130, the spec's own inferences), for the operations one by one and for the
expansion of R126. After `SWAPREQ`, once the status reads 0 the roles have inverted and no byte has moved; the copy then makes both
buffers what the host drew. `SWAPBUFFERS` does so, ends on a read of 0x00, goes on waiting while a swap is pending, and is over when
`4*NROWS` ticks have fallen before its reads. Where the ticks fall is the model's schedule (DESIGN CHOICE, log entry 18). -/
def Obligations.SwapBuffersGuarantee : Prop :=
  (∀ s s1 : State, s.Inv → s.active = true → s.timer.run = true → s.straps.dbuf = true → s.preempt = [] →
    exec .swapReq s = .next s1 →
    ∀ n t, refresh n s1 = .next t → t.swapreq = false →
      t.back = s.back.other ∧ t.fb t.fr = s.fb s.bk ∧ t.fb t.bk = s.fb s.fr ∧
      ∃ u, exec .copyFwd t = .next u ∧ u.fr = t.fr ∧ u.fb u.fr = s.fb s.bk ∧ u.fb u.bk = s.fb s.bk) ∧
  ∀ (s : State) (copy : Bool) (between : List Nat) (late : Nat), s.Inv → s.active = true → s.timer.run = true →
    s.straps.dbuf = true → s.preempt = [] →
    ∃ w, swapBuffers copy between late s = .next w ∧
      (4 * s.nrows ≤ between.sum → w.done = true) ∧
      (w.done = true → between ≠ [] ∧ w.state.back = s.back.other ∧ w.state.swapreq = false ∧
        w.state.fb w.state.fr = s.fb s.bk ∧ w.state.fb w.state.bk = (if copy then s.fb s.bk else s.fb s.fr) ∧
        (copy = false → w.state.rsp = 0x00 ∧ w.state.rspValid = true)) ∧
      (w.done = false → w.state.swapreq = true ∧ w.state.back = s.back ∧ w.state.fb0 = s.fb0 ∧ w.state.fb1 = s.fb1)

/-! ## The panel (the spec's reference model, PRESUMED from general knowledge: log entry 14) -/

/-- After a tick the panel's shift registers hold the line of the new cursor, whatever they held before (60_exceptions.md R147, from
general knowledge; log entry 14). -/
def Obligations.ShiftRegistersHoldTheLine : Prop :=
  ∀ (s : State) (q : Panel), s.Inv → s.active = true → s.timer.pending = true → q.sr.length = 32 → q.pins = s.pins →
    ∃ t es, exec .tick s = .next t ∧ t.out = s.out ++ es ∧ (q.watch es).pins = t.pins ∧
      (q.watch es).sr = (List.range 32).map fun col => lineAt (t.fb t.fr) t.plane.toNat t.row.toNat col

/-- What is shown, end to end (60_exceptions.md R150, the spec's own inference; the panel is log entry 14): from step 5 of a tick with
entry cursor `(p, r)`, when the tick before it has shifted that line in, until its end, every LED of physical rows `r` and
`r + NROWS` shows bit `p` of its channel as stored in the buffer that was the front buffer one tick earlier, and all others are
dark. -/
def Obligations.PanelShowsStoredPlane : Prop :=
  ∀ (s0 : State) (q : Panel), s0.Inv → s0.active = true → s0.timer.pending = true → q.sr.length = 32 → q.pins = s0.pins →
    ∃ s1 s2 es1 es2, exec .tick s0 = .next s1 ∧ exec .tick s1.expire = .next s2 ∧
      s1.out = s0.out ++ es1 ∧ s2.out = s1.out ++ es2 ∧
      ∀ pre post px py ch, es2 = pre ++ post → Event.blank false ∈ pre → px < 32 → py < 2 * s0.nrows →
        ((q.watch es1).watch pre).lit s0.straps.nrows px py ch =
          (decide (scanRowOf s0.straps.nrows py = s1.row.toNat) &&
            (unpackChannel s0.straps.nrows (s1.fb s1.fr) px py ch).getLsbD s1.plane.toNat)

/-! ## Whole-machine rules -/

/-- The invariant holds at power-on of every admitted instance, with the values the model names there (log entries 2, 3). -/
def Obligations.InvariantAtPowerOn : Prop :=
  ∀ p : Straps, (State.resetWith p).Inv

/-- Every step keeps the invariant: memory in canonical form and within the buffers, `row < NROWS` (10_state.md R17), the timer running or
pending and never both (60_exceptions.md R135), the flags and lines as State.Running says, an interrupted operation on existing
bytes. -/
def Obligations.StepKeepsInvariant : Prop :=
  ∀ s t : State, s.Inv → step s = .next t → t.Inv

/-- No computed offset lies outside a buffer (20_memory.md R40, 60_exceptions.md R132): a state of the invariant never faults. -/
def Obligations.InvariantStateNeverFaults : Prop :=
  ∀ (s : State) (f : Fault), s.Inv → step s ≠ .fault f

/-- `Out` only grows, and the pin registers and the armed interval are what its new events set (10_state.md R33). -/
def Obligations.OutReplaysPins : Prop :=
  ∀ s t : State, step s = .next t →
    ∃ es, t.out = s.out ++ es ∧ t.pins = es.foldl Pins.apply s.pins ∧
      t.timer.period = (es.foldl Timer.apply s.timer).period

/-- The straps are never written (10_state.md R28). -/
def Obligations.StrapsNeverChange : Prop :=
  ∀ s t : State, step s = .next t → t.straps = s.straps

/-- The scan cursor and `back` are written by `TICK` alone while `active = 1`, and `swapreq` is cleared by it alone (10_state.md R31);
`TICK` writes no framebuffer byte. -/
def Obligations.OnlyTickMovesCursor : Prop :=
  ∀ s t : State, s.active = true → step s = .next t →
    (s.timer.pending = false → t.plane = s.plane ∧ t.row = s.row ∧ t.back = s.back ∧ (s.swapreq = true → t.swapreq = true)) ∧
    (s.timer.pending = true → t.fb0 = s.fb0 ∧ t.fb1 = s.fb1)
end

