-- ==== Sys2Proof/Laws/Encoding.lean ====
section
/-! SUPPORT. The fields of a command word, taken apart and put together. -/

namespace Sys2Proof

/-- The mask of a word made of fields acts field by field. -/
theorem cmdWord_and (op op' : BitVec 4) (x x' y y' c c' : Half) :
    cmdWord op x y c &&& cmdWord op' x' y' c' = cmdWord (op &&& op') (x &&& x') (y &&& y') (c &&& c') := by
  change ((op ++ x ++ y ++ c : BitVec (4 + 16 + 16 + 16)) &&& (op' ++ x' ++ y' ++ c' : BitVec (4 + 16 + 16 + 16))) = _
  rw [BitVec.and_append, BitVec.and_append, BitVec.and_append]
  rfl

@[simp] theorem cmdOp_cmdWord (op : BitVec 4) (x y c : Half) : cmdOp (cmdWord op x y c) = op := by
  apply BitVec.eq_of_getLsbD_eq
  intro i hi
  simp only [cmdOp, cmdWord, BitVec.getLsbD_extractLsb', BitVec.getLsbD_append]
  simp only [hi, decide_true, Bool.true_and]
  rw [if_neg (by omega), if_neg (by omega), if_neg (by omega)]
  congr 1; omega

@[simp] theorem cmdX_cmdWord (op : BitVec 4) (x y c : Half) : cmdX (cmdWord op x y c) = x := by
  apply BitVec.eq_of_getLsbD_eq
  intro i hi
  simp only [cmdX, cmdWord, BitVec.getLsbD_extractLsb', BitVec.getLsbD_append]
  simp only [hi, decide_true, Bool.true_and]
  rw [if_neg (by omega), if_neg (by omega), if_pos (by omega)]
  congr 1; omega

@[simp] theorem cmdY_cmdWord (op : BitVec 4) (x y c : Half) : cmdY (cmdWord op x y c) = y := by
  apply BitVec.eq_of_getLsbD_eq
  intro i hi
  simp only [cmdY, cmdWord, BitVec.getLsbD_extractLsb', BitVec.getLsbD_append]
  simp only [hi, decide_true, Bool.true_and]
  rw [if_neg (by omega), if_pos (by omega)]
  congr 1; omega

@[simp] theorem cmdC_cmdWord (op : BitVec 4) (x y c : Half) : cmdC (cmdWord op x y c) = c := by
  apply BitVec.eq_of_getLsbD_eq
  intro i hi
  simp only [cmdC, cmdWord, BitVec.getLsbD_extractLsb', BitVec.getLsbD_append]
  simp only [hi, decide_true, Bool.true_and]
  rw [if_pos (by omega)]
  congr 1; omega

/-- A command word is its four fields. -/
theorem cmdWord_fields (w : CmdWord) : cmdWord (cmdOp w) (cmdX w) (cmdY w) (cmdC w) = w := by
  apply BitVec.eq_of_getLsbD_eq
  intro i hi
  simp only [cmdOp, cmdX, cmdY, cmdC, cmdWord, BitVec.getLsbD_extractLsb', BitVec.getLsbD_append]
  split
  · simp_all
  · split
    · rename_i h1 h2
      simp only [h2, decide_true, Bool.true_and]; congr 1; omega
    · split
      · rename_i h1 h2 h3
        simp only [h3, decide_true, Bool.true_and]; congr 1; omega
      · rename_i h1 h2 h3
        rw [decide_eq_true (by omega), Bool.true_and]; congr 1; omega

/-- Words are equal exactly when their fields are. -/
theorem cmdWord_inj {op op' : BitVec 4} {x x' y y' c c' : Half} :
    cmdWord op x y c = cmdWord op' x' y' c' ↔ op = op' ∧ x = x' ∧ y = y' ∧ c = c' := by
  constructor
  · intro h
    exact ⟨by simpa using congrArg cmdOp h, by simpa using congrArg cmdX h, by simpa using congrArg cmdY h,
      by simpa using congrArg cmdC h⟩
  · rintro ⟨rfl, rfl, rfl, rfl⟩; rfl

/-- A row whose pattern and mask are given by fields selects a word when each masked field is the pattern's. -/
theorem Row.selects_iff (r : Row) (op op' : BitVec 4) (x x' y y' c c' : Half) (hp : r.pattern = cmdWord op x y c)
    (hm : r.mask = cmdWord op' x' y' c') (w : CmdWord) :
    r.selects w = true ↔
      cmdOp w &&& op' = op ∧ cmdX w &&& x' = x ∧ cmdY w &&& y' = y ∧ cmdC w &&& c' = c := by
  rw [Row.selects, decide_eq_true_eq, hp, hm]
  conv => lhs; lhs; lhs; rw [← cmdWord_fields w]
  rw [cmdWord_and, cmdWord_inj]

end Sys2Proof
end

