-- ==== Sys2Proof/Laws/Memory.lean ====
section
/-! SUPPORT. One read, one write: what a write does to every read, and that it keeps the canonical form. -/

namespace Sys2Proof.Machine

@[simp] theorem Memory.read_nil (a : Nat) : Memory.read [] a = 0 := rfl

theorem Memory.read_cons (b : Nat) (x : Byte) (m : Memory) (a : Nat) :
    Memory.read ((b, x) :: m) a = if a = b then x else m.read a := rfl

theorem Memory.wf_cons (c : Host.Cell) (m : Memory) :
    Memory.wf (c :: m) = true ↔ (∀ d ∈ m, c.1 < d.1) ∧ c.2 ≠ 0 ∧ m.wf = true := by
  simp only [Memory.wf, List.pairwise_cons, List.all_cons, Bool.and_eq_true, decide_eq_true_eq, bne_iff_ne]
  tauto

theorem Memory.read_eq_zero_of_not_mem (m : Memory) (a : Nat) (h : ∀ d ∈ m, d.1 ≠ a) : m.read a = 0 := by
  induction m with
  | nil => rfl
  | cons c m ih =>
    rw [Memory.read_cons, if_neg (h c (by simp)).symm, ih (fun d hd => h d (by simp [hd]))]

/-- Every listed offset after a write is the written one or was listed before. -/
theorem Memory.mem_write (m : Memory) (a : Nat) (v : Byte) (d : Host.Cell) (h : d ∈ m.write a v) :
    d = (a, v) ∨ d ∈ m := by
  induction m with
  | nil =>
    simp only [Memory.write] at h
    split at h <;> simp_all
  | cons c m ih =>
    obtain ⟨b, x⟩ := c
    simp only [Memory.write] at h
    split at h
    · split at h
      · exact .inr h
      · simpa using h
    · split at h
      · split at h
        · exact .inr (List.mem_cons_of_mem _ h)
        · rcases List.mem_cons.1 h with h | h
          · exact .inl h
          · exact .inr (List.mem_cons_of_mem _ h)
      · rcases List.mem_cons.1 h with h | h
        · exact .inr (by simp [h])
        · rcases ih h with h | h
          · exact .inl h
          · exact .inr (List.mem_cons_of_mem _ h)

/-- A write keeps the canonical form. -/
theorem Memory.wf_write (m : Memory) (a : Nat) (v : Byte) (h : m.wf = true) : (m.write a v).wf = true := by
  induction m with
  | nil =>
    simp only [Memory.write]
    split
    · rfl
    · rw [Memory.wf_cons]
      simp_all [Memory.wf]
  | cons c m ih =>
    obtain ⟨b, x⟩ := c
    obtain ⟨hlt, hx, hm⟩ := (Memory.wf_cons _ _).1 h
    simp only [Memory.write]
    split
    · rename_i hab
      split
      · exact h
      · rename_i hv
        refine (Memory.wf_cons _ _).2 ⟨?_, hv, h⟩
        intro d hd
        rcases List.mem_cons.1 hd with rfl | hd
        · exact hab
        · exact Nat.lt_trans hab (hlt d hd)
    · split
      · rename_i hab
        split
        · exact hm
        · rename_i hv
          exact (Memory.wf_cons _ _).2 ⟨fun d hd => hab ▸ hlt d hd, hv, hm⟩
      · rename_i h1 h2
        refine (Memory.wf_cons _ _).2 ⟨fun d hd => ?_, hx, ih hm⟩
        rcases Memory.mem_write m a v d hd with rfl | hd
        · simp only; omega
        · exact hlt d hd

/-- A read after a write: the written byte at its offset, the old byte elsewhere. -/
theorem Memory.read_write (m : Memory) (a : Nat) (v : Byte) (h : m.wf = true) (a' : Nat) :
    (m.write a v).read a' = if a' = a then v else m.read a' := by
  induction m with
  | nil =>
    simp only [Memory.write]
    split
    · simp_all
    · simp [Memory.read_cons]
  | cons c m ih =>
    obtain ⟨b, x⟩ := c
    obtain ⟨hlt, hx, hm⟩ := (Memory.wf_cons _ _).1 h
    have far : ∀ k, k ≤ b → Memory.read m k = 0 := fun k hk =>
      Memory.read_eq_zero_of_not_mem m k fun d hd => by have := hlt d hd; simp only at this; omega
    simp only [Memory.write]
    split
    · rename_i hab
      split
      · rename_i hv
        by_cases ha : a' = a
        · subst ha
          rw [if_pos rfl, Memory.read_cons, if_neg (by omega), far _ (by omega), hv]
        · rw [if_neg ha]
      · rw [Memory.read_cons]
    · split
      · rename_i hab
        subst hab
        by_cases ha : a' = a
        · subst ha
          split
          · rename_i hv; rw [if_pos rfl, far _ (Nat.le_refl _), hv]
          · rw [Memory.read_cons, if_pos rfl, if_pos rfl]
        · split <;> simp [Memory.read_cons, ha]
      · rename_i h1 h2
        rw [Memory.read_cons, Memory.read_cons, ih hm]
        by_cases ha : a' = a
        · subst ha; simp [h2]
        · simp [ha]

theorem Memory.within_iff (n : Nat) (m : Memory) : m.within n = true ↔ ∀ d ∈ m, d.1 < n := by
  simp [Memory.within]

/-- A write below `n` keeps every listed offset below `n`. -/
theorem Memory.within_write (n : Nat) (m : Memory) (a : Nat) (v : Byte) (h : m.within n = true) (ha : a < n) :
    (m.write a v).within n = true := by
  rw [Memory.within_iff] at *
  intro d hd
  rcases Memory.mem_write m a v d hd with rfl | hd
  · exact ha
  · exact h d hd

/-- An offset no entry lists reads 0x00; in particular one at or above a bound the memory lies within. -/
theorem Memory.read_of_within (n : Nat) (m : Memory) (h : m.within n = true) (a : Nat) (ha : n ≤ a) : m.read a = 0 :=
  Memory.read_eq_zero_of_not_mem m a fun d hd => by have := (Memory.within_iff n m).1 h d hd; omega

/-- Two memories in canonical form with the same bytes are the same data. -/
theorem Memory.ext (m n : Memory) (hm : m.wf = true) (hn : n.wf = true) (h : ∀ a, m.read a = n.read a) : m = n := by
  induction m generalizing n with
  | nil =>
    cases n with
    | nil => rfl
    | cons c n =>
      obtain ⟨b, x⟩ := c
      have := h b
      rw [Memory.read_cons, if_pos rfl] at this
      exact absurd this.symm ((Memory.wf_cons _ _).1 hn).2.1
  | cons c m ih =>
    obtain ⟨a, x⟩ := c
    obtain ⟨hlt, hx, hm'⟩ := (Memory.wf_cons _ _).1 hm
    cases n with
    | nil =>
      have := h a
      rw [Memory.read_cons, if_pos rfl] at this
      exact absurd this hx
    | cons d n =>
      obtain ⟨b, y⟩ := d
      obtain ⟨hlt', hy, hn'⟩ := (Memory.wf_cons _ _).1 hn
      have zm : ∀ k, k ≤ a → Memory.read m k = 0 := fun k hk =>
        Memory.read_eq_zero_of_not_mem m k fun d hd => by have := hlt d hd; simp only at this; omega
      have zn : ∀ k, k ≤ b → Memory.read n k = 0 := fun k hk =>
        Memory.read_eq_zero_of_not_mem n k fun d hd => by have := hlt' d hd; simp only at this; omega
      have hab : a = b := by
        rcases Nat.lt_trichotomy a b with hab | hab | hab
        · have := h a
          rw [Memory.read_cons, if_pos rfl, Memory.read_cons, if_neg (by omega), zn _ (by omega)] at this
          exact absurd this hx
        · exact hab
        · have := h b
          rw [Memory.read_cons, if_neg (by omega), zm _ (by omega), Memory.read_cons, if_pos rfl] at this
          exact absurd this.symm hy
      subst hab
      have hxy : x = y := by
        have := h a
        simpa [Memory.read_cons] using this
      subst hxy
      rw [ih n hm' hn' fun k => ?_]
      by_cases hk : k = a
      · subst hk; rw [zm _ (Nat.le_refl _), zn _ (Nat.le_refl _)]
      · have := h k
        simpa [Memory.read_cons, hk] using this

/-- Writing zero below `n` in canonical form: the form is kept, and every byte below `n` reads 0x00. -/
theorem Memory.clear_spec (n : Nat) (m : Memory) (h : m.wf = true) :
    (m.clear n).wf = true ∧ ∀ a, (m.clear n).read a = if a < n then 0 else m.read a := by
  induction n with
  | zero => simpa [Memory.clear] using h
  | succ n ih =>
    have step : m.clear (n + 1) = (m.clear n).write n 0 := by
      simp [Memory.clear, List.range_succ, List.foldl_append]
    rw [step]
    refine ⟨Memory.wf_write _ _ _ ih.1, fun a => ?_⟩
    rw [Memory.read_write _ _ _ ih.1, ih.2]
    by_cases h1 : a = n
    · simp [h1]
    · by_cases h2 : a < n
      · simp [h1, h2, Nat.lt_succ_of_lt h2]
      · rw [if_neg h1, if_neg h2, if_neg (by omega)]

/-- A memory within `n` is empty once cleared. -/
theorem Memory.clear_eq_nil (n : Nat) (m : Memory) (h : m.wf = true) (hw : m.within n = true) : m.clear n = [] := by
  obtain ⟨hwf, hread⟩ := Memory.clear_spec n m h
  refine Memory.ext _ _ hwf rfl fun a => ?_
  rw [hread]
  by_cases ha : a < n
  · simp [ha]
  · rw [if_neg ha, Memory.read_of_within n m hw a (by omega)]; rfl

end Sys2Proof.Machine
end

