-- ==== Sys2Proof/Laws/State.lean ====
section
/-! SUPPORT. One lemma per field per named update of the state, so that no later proof unfolds a record update. -/

namespace Sys2Proof.Machine

variable (s : State)

/-! ### State.emit -/

@[simp] theorem State.emit_straps (e : Event) : (s.emit e).straps = s.straps := rfl
@[simp] theorem State.emit_rot (e : Event) : (s.emit e).rot = s.rot := rfl
@[simp] theorem State.emit_active (e : Event) : (s.emit e).active = s.active := rfl
@[simp] theorem State.emit_plane (e : Event) : (s.emit e).plane = s.plane := rfl
@[simp] theorem State.emit_row (e : Event) : (s.emit e).row = s.row := rfl
@[simp] theorem State.emit_swapreq (e : Event) : (s.emit e).swapreq = s.swapreq := rfl
@[simp] theorem State.emit_back (e : Event) : (s.emit e).back = s.back := rfl
@[simp] theorem State.emit_fb0 (e : Event) : (s.emit e).fb0 = s.fb0 := rfl
@[simp] theorem State.emit_fb1 (e : Event) : (s.emit e).fb1 = s.fb1 := rfl
@[simp] theorem State.emit_pins (e : Event) : (s.emit e).pins = s.pins.apply e := rfl
@[simp] theorem State.emit_timer (e : Event) : (s.emit e).timer = s.timer.apply e := rfl
@[simp] theorem State.emit_out (e : Event) : (s.emit e).out = s.out ++ [e] := rfl
@[simp] theorem State.emit_rsp (e : Event) : (s.emit e).rsp = s.rsp := rfl
@[simp] theorem State.emit_rspValid (e : Event) : (s.emit e).rspValid = s.rspValid := rfl
@[simp] theorem State.emit_suspended (e : Event) : (s.emit e).suspended = s.suspended := rfl
@[simp] theorem State.emit_preempt (e : Event) : (s.emit e).preempt = s.preempt := rfl
@[simp] theorem State.emit_inputs (e : Event) : (s.emit e).inputs = s.inputs := rfl
@[simp] theorem State.emit_undriven (e : Event) : (s.emit e).undriven = s.undriven := rfl

/-! ### State.undriveRsp -/

@[simp] theorem State.undriveRsp_straps : (s.undriveRsp).straps = s.straps := rfl
@[simp] theorem State.undriveRsp_rot : (s.undriveRsp).rot = s.rot := rfl
@[simp] theorem State.undriveRsp_active : (s.undriveRsp).active = s.active := rfl
@[simp] theorem State.undriveRsp_plane : (s.undriveRsp).plane = s.plane := rfl
@[simp] theorem State.undriveRsp_row : (s.undriveRsp).row = s.row := rfl
@[simp] theorem State.undriveRsp_swapreq : (s.undriveRsp).swapreq = s.swapreq := rfl
@[simp] theorem State.undriveRsp_back : (s.undriveRsp).back = s.back := rfl
@[simp] theorem State.undriveRsp_fb0 : (s.undriveRsp).fb0 = s.fb0 := rfl
@[simp] theorem State.undriveRsp_fb1 : (s.undriveRsp).fb1 = s.fb1 := rfl
@[simp] theorem State.undriveRsp_pins : (s.undriveRsp).pins = s.pins := rfl
@[simp] theorem State.undriveRsp_timer : (s.undriveRsp).timer = s.timer := rfl
@[simp] theorem State.undriveRsp_out : (s.undriveRsp).out = s.out := rfl
@[simp] theorem State.undriveRsp_rsp : (s.undriveRsp).rsp = Config.undrivenRsp s.undriven := rfl
@[simp] theorem State.undriveRsp_rspValid : (s.undriveRsp).rspValid = false := rfl
@[simp] theorem State.undriveRsp_suspended : (s.undriveRsp).suspended = s.suspended := rfl
@[simp] theorem State.undriveRsp_preempt : (s.undriveRsp).preempt = s.preempt := rfl
@[simp] theorem State.undriveRsp_inputs : (s.undriveRsp).inputs = s.inputs := rfl
@[simp] theorem State.undriveRsp_undriven : (s.undriveRsp).undriven = s.undriven + 1 := rfl

/-! ### State.leaveTick -/

@[simp] theorem State.leaveTick_straps : (s.leaveTick).straps = s.straps := rfl
@[simp] theorem State.leaveTick_rot : (s.leaveTick).rot = s.rot := rfl
@[simp] theorem State.leaveTick_active : (s.leaveTick).active = s.active := rfl
@[simp] theorem State.leaveTick_plane : (s.leaveTick).plane = s.plane := rfl
@[simp] theorem State.leaveTick_row : (s.leaveTick).row = s.row := rfl
@[simp] theorem State.leaveTick_swapreq : (s.leaveTick).swapreq = s.swapreq := rfl
@[simp] theorem State.leaveTick_back : (s.leaveTick).back = s.back := rfl
@[simp] theorem State.leaveTick_fb0 : (s.leaveTick).fb0 = s.fb0 := rfl
@[simp] theorem State.leaveTick_fb1 : (s.leaveTick).fb1 = s.fb1 := rfl
@[simp] theorem State.leaveTick_pins : (s.leaveTick).pins = s.pins := rfl
@[simp] theorem State.leaveTick_timer : (s.leaveTick).timer = s.timer := rfl
@[simp] theorem State.leaveTick_out : (s.leaveTick).out = s.out := rfl
@[simp] theorem State.leaveTick_rsp : (s.leaveTick).rsp = Config.undrivenRsp s.undriven := rfl
@[simp] theorem State.leaveTick_rspValid : (s.leaveTick).rspValid = false := rfl
@[simp] theorem State.leaveTick_suspended : (s.leaveTick).suspended = s.suspended := rfl
@[simp] theorem State.leaveTick_preempt : (s.leaveTick).preempt = s.preempt := rfl
@[simp] theorem State.leaveTick_inputs : (s.leaveTick).inputs = s.inputs := rfl
@[simp] theorem State.leaveTick_undriven : (s.leaveTick).undriven = s.undriven + 1 := rfl

/-! ### State.respond -/

@[simp] theorem State.respond_straps (v : Byte) : ((s.respond v)).straps = s.straps := rfl
@[simp] theorem State.respond_rot (v : Byte) : ((s.respond v)).rot = s.rot := rfl
@[simp] theorem State.respond_active (v : Byte) : ((s.respond v)).active = s.active := rfl
@[simp] theorem State.respond_plane (v : Byte) : ((s.respond v)).plane = s.plane := rfl
@[simp] theorem State.respond_row (v : Byte) : ((s.respond v)).row = s.row := rfl
@[simp] theorem State.respond_swapreq (v : Byte) : ((s.respond v)).swapreq = s.swapreq := rfl
@[simp] theorem State.respond_back (v : Byte) : ((s.respond v)).back = s.back := rfl
@[simp] theorem State.respond_fb0 (v : Byte) : ((s.respond v)).fb0 = s.fb0 := rfl
@[simp] theorem State.respond_fb1 (v : Byte) : ((s.respond v)).fb1 = s.fb1 := rfl
@[simp] theorem State.respond_pins (v : Byte) : ((s.respond v)).pins = s.pins := rfl
@[simp] theorem State.respond_timer (v : Byte) : ((s.respond v)).timer = s.timer := rfl
@[simp] theorem State.respond_out (v : Byte) : ((s.respond v)).out = s.out := rfl
@[simp] theorem State.respond_rsp (v : Byte) : ((s.respond v)).rsp = v := rfl
@[simp] theorem State.respond_rspValid (v : Byte) : ((s.respond v)).rspValid = true := rfl
@[simp] theorem State.respond_suspended (v : Byte) : ((s.respond v)).suspended = s.suspended := rfl
@[simp] theorem State.respond_preempt (v : Byte) : ((s.respond v)).preempt = s.preempt := rfl
@[simp] theorem State.respond_inputs (v : Byte) : ((s.respond v)).inputs = s.inputs := rfl
@[simp] theorem State.respond_undriven (v : Byte) : ((s.respond v)).undriven = s.undriven := rfl

/-! ### State.expire -/

@[simp] theorem State.expire_straps : (s.expire).straps = s.straps := rfl
@[simp] theorem State.expire_rot : (s.expire).rot = s.rot := rfl
@[simp] theorem State.expire_active : (s.expire).active = s.active := rfl
@[simp] theorem State.expire_plane : (s.expire).plane = s.plane := rfl
@[simp] theorem State.expire_row : (s.expire).row = s.row := rfl
@[simp] theorem State.expire_swapreq : (s.expire).swapreq = s.swapreq := rfl
@[simp] theorem State.expire_back : (s.expire).back = s.back := rfl
@[simp] theorem State.expire_fb0 : (s.expire).fb0 = s.fb0 := rfl
@[simp] theorem State.expire_fb1 : (s.expire).fb1 = s.fb1 := rfl
@[simp] theorem State.expire_pins : (s.expire).pins = s.pins := rfl
@[simp] theorem State.expire_timer : (s.expire).timer = { s.timer with run := false, pending := true } := rfl
@[simp] theorem State.expire_out : (s.expire).out = s.out := rfl
@[simp] theorem State.expire_rsp : (s.expire).rsp = s.rsp := rfl
@[simp] theorem State.expire_rspValid : (s.expire).rspValid = s.rspValid := rfl
@[simp] theorem State.expire_suspended : (s.expire).suspended = s.suspended := rfl
@[simp] theorem State.expire_preempt : (s.expire).preempt = s.preempt := rfl
@[simp] theorem State.expire_inputs : (s.expire).inputs = s.inputs := rfl
@[simp] theorem State.expire_undriven : (s.expire).undriven = s.undriven := rfl

/-! ### State.enterTick -/

@[simp] theorem State.enterTick_straps : (s.enterTick).straps = s.straps := rfl
@[simp] theorem State.enterTick_rot : (s.enterTick).rot = s.rot := rfl
@[simp] theorem State.enterTick_active : (s.enterTick).active = s.active := rfl
@[simp] theorem State.enterTick_plane : (s.enterTick).plane = s.plane := rfl
@[simp] theorem State.enterTick_row : (s.enterTick).row = s.row := rfl
@[simp] theorem State.enterTick_swapreq : (s.enterTick).swapreq = s.swapreq := rfl
@[simp] theorem State.enterTick_back : (s.enterTick).back = s.back := rfl
@[simp] theorem State.enterTick_fb0 : (s.enterTick).fb0 = s.fb0 := rfl
@[simp] theorem State.enterTick_fb1 : (s.enterTick).fb1 = s.fb1 := rfl
@[simp] theorem State.enterTick_pins : (s.enterTick).pins = s.pins := rfl
@[simp] theorem State.enterTick_timer : (s.enterTick).timer = { s.timer with pending := false } := rfl
@[simp] theorem State.enterTick_out : (s.enterTick).out = s.out := rfl
@[simp] theorem State.enterTick_rsp : (s.enterTick).rsp = s.rsp := rfl
@[simp] theorem State.enterTick_rspValid : (s.enterTick).rspValid = s.rspValid := rfl
@[simp] theorem State.enterTick_suspended : (s.enterTick).suspended = s.suspended := rfl
@[simp] theorem State.enterTick_preempt : (s.enterTick).preempt = s.preempt := rfl
@[simp] theorem State.enterTick_inputs : (s.enterTick).inputs = s.inputs := rfl
@[simp] theorem State.enterTick_undriven : (s.enterTick).undriven = s.undriven := rfl

/-! ### State.setFb -/

@[simp] theorem State.setFb_straps (b : Buf) (m : Memory) : (s.setFb b m).straps = s.straps := by cases b <;> rfl
@[simp] theorem State.setFb_rot (b : Buf) (m : Memory) : (s.setFb b m).rot = s.rot := by cases b <;> rfl
@[simp] theorem State.setFb_active (b : Buf) (m : Memory) : (s.setFb b m).active = s.active := by cases b <;> rfl
@[simp] theorem State.setFb_plane (b : Buf) (m : Memory) : (s.setFb b m).plane = s.plane := by cases b <;> rfl
@[simp] theorem State.setFb_row (b : Buf) (m : Memory) : (s.setFb b m).row = s.row := by cases b <;> rfl
@[simp] theorem State.setFb_swapreq (b : Buf) (m : Memory) : (s.setFb b m).swapreq = s.swapreq := by cases b <;> rfl
@[simp] theorem State.setFb_back (b : Buf) (m : Memory) : (s.setFb b m).back = s.back := by cases b <;> rfl
@[simp] theorem State.setFb_pins (b : Buf) (m : Memory) : (s.setFb b m).pins = s.pins := by cases b <;> rfl
@[simp] theorem State.setFb_timer (b : Buf) (m : Memory) : (s.setFb b m).timer = s.timer := by cases b <;> rfl
@[simp] theorem State.setFb_out (b : Buf) (m : Memory) : (s.setFb b m).out = s.out := by cases b <;> rfl
@[simp] theorem State.setFb_rsp (b : Buf) (m : Memory) : (s.setFb b m).rsp = s.rsp := by cases b <;> rfl
@[simp] theorem State.setFb_rspValid (b : Buf) (m : Memory) : (s.setFb b m).rspValid = s.rspValid := by cases b <;> rfl
@[simp] theorem State.setFb_suspended (b : Buf) (m : Memory) : (s.setFb b m).suspended = s.suspended := by cases b <;> rfl
@[simp] theorem State.setFb_preempt (b : Buf) (m : Memory) : (s.setFb b m).preempt = s.preempt := by cases b <;> rfl
@[simp] theorem State.setFb_inputs (b : Buf) (m : Memory) : (s.setFb b m).inputs = s.inputs := by cases b <;> rfl
@[simp] theorem State.setFb_undriven (b : Buf) (m : Memory) : (s.setFb b m).undriven = s.undriven := by cases b <;> rfl

/-! ### State.memWrite -/

@[simp] theorem State.memWrite_straps (b : Buf) (off : Nat) (v : Byte) : (s.memWrite b off v).straps = s.straps := by cases b <;> rfl
@[simp] theorem State.memWrite_rot (b : Buf) (off : Nat) (v : Byte) : (s.memWrite b off v).rot = s.rot := by cases b <;> rfl
@[simp] theorem State.memWrite_active (b : Buf) (off : Nat) (v : Byte) : (s.memWrite b off v).active = s.active := by cases b <;> rfl
@[simp] theorem State.memWrite_plane (b : Buf) (off : Nat) (v : Byte) : (s.memWrite b off v).plane = s.plane := by cases b <;> rfl
@[simp] theorem State.memWrite_row (b : Buf) (off : Nat) (v : Byte) : (s.memWrite b off v).row = s.row := by cases b <;> rfl
@[simp] theorem State.memWrite_swapreq (b : Buf) (off : Nat) (v : Byte) : (s.memWrite b off v).swapreq = s.swapreq := by cases b <;> rfl
@[simp] theorem State.memWrite_back (b : Buf) (off : Nat) (v : Byte) : (s.memWrite b off v).back = s.back := by cases b <;> rfl
@[simp] theorem State.memWrite_pins (b : Buf) (off : Nat) (v : Byte) : (s.memWrite b off v).pins = s.pins := by cases b <;> rfl
@[simp] theorem State.memWrite_timer (b : Buf) (off : Nat) (v : Byte) : (s.memWrite b off v).timer = s.timer := by cases b <;> rfl
@[simp] theorem State.memWrite_out (b : Buf) (off : Nat) (v : Byte) : (s.memWrite b off v).out = s.out := by cases b <;> rfl
@[simp] theorem State.memWrite_rsp (b : Buf) (off : Nat) (v : Byte) : (s.memWrite b off v).rsp = s.rsp := by cases b <;> rfl
@[simp] theorem State.memWrite_rspValid (b : Buf) (off : Nat) (v : Byte) : (s.memWrite b off v).rspValid = s.rspValid := by cases b <;> rfl
@[simp] theorem State.memWrite_suspended (b : Buf) (off : Nat) (v : Byte) : (s.memWrite b off v).suspended = s.suspended := by cases b <;> rfl
@[simp] theorem State.memWrite_preempt (b : Buf) (off : Nat) (v : Byte) : (s.memWrite b off v).preempt = s.preempt := by cases b <;> rfl
@[simp] theorem State.memWrite_inputs (b : Buf) (off : Nat) (v : Byte) : (s.memWrite b off v).inputs = s.inputs := by cases b <;> rfl
@[simp] theorem State.memWrite_undriven (b : Buf) (off : Nat) (v : Byte) : (s.memWrite b off v).undriven = s.undriven := by cases b <;> rfl

/-! ### State.requestSwap -/

@[simp] theorem State.requestSwap_straps : (s.requestSwap).straps = s.straps := by unfold State.requestSwap; split <;> simp_all
@[simp] theorem State.requestSwap_rot : (s.requestSwap).rot = s.rot := by unfold State.requestSwap; split <;> simp_all
@[simp] theorem State.requestSwap_active : (s.requestSwap).active = s.active := by unfold State.requestSwap; split <;> simp_all
@[simp] theorem State.requestSwap_plane : (s.requestSwap).plane = s.plane := by unfold State.requestSwap; split <;> simp_all
@[simp] theorem State.requestSwap_row : (s.requestSwap).row = s.row := by unfold State.requestSwap; split <;> simp_all
@[simp] theorem State.requestSwap_swapreq : (s.requestSwap).swapreq = (s.straps.dbuf || s.swapreq) := by unfold State.requestSwap; split <;> simp_all
@[simp] theorem State.requestSwap_back : (s.requestSwap).back = s.back := by unfold State.requestSwap; split <;> simp_all
@[simp] theorem State.requestSwap_fb0 : (s.requestSwap).fb0 = s.fb0 := by unfold State.requestSwap; split <;> simp_all
@[simp] theorem State.requestSwap_fb1 : (s.requestSwap).fb1 = s.fb1 := by unfold State.requestSwap; split <;> simp_all
@[simp] theorem State.requestSwap_pins : (s.requestSwap).pins = s.pins := by unfold State.requestSwap; split <;> simp_all
@[simp] theorem State.requestSwap_timer : (s.requestSwap).timer = s.timer := by unfold State.requestSwap; split <;> simp_all
@[simp] theorem State.requestSwap_out : (s.requestSwap).out = s.out := by unfold State.requestSwap; split <;> simp_all
@[simp] theorem State.requestSwap_rsp : (s.requestSwap).rsp = s.rsp := by unfold State.requestSwap; split <;> simp_all
@[simp] theorem State.requestSwap_rspValid : (s.requestSwap).rspValid = s.rspValid := by unfold State.requestSwap; split <;> simp_all
@[simp] theorem State.requestSwap_suspended : (s.requestSwap).suspended = s.suspended := by unfold State.requestSwap; split <;> simp_all
@[simp] theorem State.requestSwap_preempt : (s.requestSwap).preempt = s.preempt := by unfold State.requestSwap; split <;> simp_all
@[simp] theorem State.requestSwap_inputs : (s.requestSwap).inputs = s.inputs := by unfold State.requestSwap; split <;> simp_all
@[simp] theorem State.requestSwap_undriven : (s.requestSwap).undriven = s.undriven := by unfold State.requestSwap; split <;> simp_all

/-! ### State.consumeSwap -/

@[simp] theorem State.consumeSwap_straps : (s.consumeSwap).straps = s.straps := by unfold State.consumeSwap; split <;> simp_all
@[simp] theorem State.consumeSwap_rot : (s.consumeSwap).rot = s.rot := by unfold State.consumeSwap; split <;> simp_all
@[simp] theorem State.consumeSwap_active : (s.consumeSwap).active = s.active := by unfold State.consumeSwap; split <;> simp_all
@[simp] theorem State.consumeSwap_plane : (s.consumeSwap).plane = s.plane := by unfold State.consumeSwap; split <;> simp_all
@[simp] theorem State.consumeSwap_row : (s.consumeSwap).row = s.row := by unfold State.consumeSwap; split <;> simp_all
@[simp] theorem State.consumeSwap_swapreq : (s.consumeSwap).swapreq = false := by unfold State.consumeSwap; split <;> simp_all
@[simp] theorem State.consumeSwap_back : (s.consumeSwap).back = if s.swapreq then s.back.other else s.back := by unfold State.consumeSwap; split <;> simp_all
@[simp] theorem State.consumeSwap_fb0 : (s.consumeSwap).fb0 = s.fb0 := by unfold State.consumeSwap; split <;> simp_all
@[simp] theorem State.consumeSwap_fb1 : (s.consumeSwap).fb1 = s.fb1 := by unfold State.consumeSwap; split <;> simp_all
@[simp] theorem State.consumeSwap_pins : (s.consumeSwap).pins = s.pins := by unfold State.consumeSwap; split <;> simp_all
@[simp] theorem State.consumeSwap_timer : (s.consumeSwap).timer = s.timer := by unfold State.consumeSwap; split <;> simp_all
@[simp] theorem State.consumeSwap_out : (s.consumeSwap).out = s.out := by unfold State.consumeSwap; split <;> simp_all
@[simp] theorem State.consumeSwap_rsp : (s.consumeSwap).rsp = s.rsp := by unfold State.consumeSwap; split <;> simp_all
@[simp] theorem State.consumeSwap_rspValid : (s.consumeSwap).rspValid = s.rspValid := by unfold State.consumeSwap; split <;> simp_all
@[simp] theorem State.consumeSwap_suspended : (s.consumeSwap).suspended = s.suspended := by unfold State.consumeSwap; split <;> simp_all
@[simp] theorem State.consumeSwap_preempt : (s.consumeSwap).preempt = s.preempt := by unfold State.consumeSwap; split <;> simp_all
@[simp] theorem State.consumeSwap_inputs : (s.consumeSwap).inputs = s.inputs := by unfold State.consumeSwap; split <;> simp_all
@[simp] theorem State.consumeSwap_undriven : (s.consumeSwap).undriven = s.undriven := by unfold State.consumeSwap; split <;> simp_all

/-! ### State.advanceCursor -/

@[simp] theorem State.advanceCursor_straps : (s.advanceCursor).straps = s.straps := by
  unfold State.advanceCursor; split <;> [(split <;> simp); rfl]
@[simp] theorem State.advanceCursor_rot : (s.advanceCursor).rot = s.rot := by
  unfold State.advanceCursor; split <;> [(split <;> simp); rfl]
@[simp] theorem State.advanceCursor_active : (s.advanceCursor).active = s.active := by
  unfold State.advanceCursor; split <;> [(split <;> simp); rfl]
@[simp] theorem State.advanceCursor_fb0 : (s.advanceCursor).fb0 = s.fb0 := by
  unfold State.advanceCursor; split <;> [(split <;> simp); rfl]
@[simp] theorem State.advanceCursor_fb1 : (s.advanceCursor).fb1 = s.fb1 := by
  unfold State.advanceCursor; split <;> [(split <;> simp); rfl]
@[simp] theorem State.advanceCursor_pins : (s.advanceCursor).pins = s.pins := by
  unfold State.advanceCursor; split <;> [(split <;> simp); rfl]
@[simp] theorem State.advanceCursor_timer : (s.advanceCursor).timer = s.timer := by
  unfold State.advanceCursor; split <;> [(split <;> simp); rfl]
@[simp] theorem State.advanceCursor_out : (s.advanceCursor).out = s.out := by
  unfold State.advanceCursor; split <;> [(split <;> simp); rfl]
@[simp] theorem State.advanceCursor_rsp : (s.advanceCursor).rsp = s.rsp := by
  unfold State.advanceCursor; split <;> [(split <;> simp); rfl]
@[simp] theorem State.advanceCursor_rspValid : (s.advanceCursor).rspValid = s.rspValid := by
  unfold State.advanceCursor; split <;> [(split <;> simp); rfl]
@[simp] theorem State.advanceCursor_suspended : (s.advanceCursor).suspended = s.suspended := by
  unfold State.advanceCursor; split <;> [(split <;> simp); rfl]
@[simp] theorem State.advanceCursor_preempt : (s.advanceCursor).preempt = s.preempt := by
  unfold State.advanceCursor; split <;> [(split <;> simp); rfl]
@[simp] theorem State.advanceCursor_inputs : (s.advanceCursor).inputs = s.inputs := by
  unfold State.advanceCursor; split <;> [(split <;> simp); rfl]
@[simp] theorem State.advanceCursor_undriven : (s.advanceCursor).undriven = s.undriven := by
  unfold State.advanceCursor; split <;> [(split <;> simp); rfl]

/-! ### State.driveRowAddress -/

@[simp] theorem State.driveRowAddress_straps : (s.driveRowAddress).straps = s.straps := by unfold State.driveRowAddress; split <;> rfl
@[simp] theorem State.driveRowAddress_rot : (s.driveRowAddress).rot = s.rot := by unfold State.driveRowAddress; split <;> rfl
@[simp] theorem State.driveRowAddress_active : (s.driveRowAddress).active = s.active := by unfold State.driveRowAddress; split <;> rfl
@[simp] theorem State.driveRowAddress_plane : (s.driveRowAddress).plane = s.plane := by unfold State.driveRowAddress; split <;> rfl
@[simp] theorem State.driveRowAddress_row : (s.driveRowAddress).row = s.row := by unfold State.driveRowAddress; split <;> rfl
@[simp] theorem State.driveRowAddress_swapreq : (s.driveRowAddress).swapreq = s.swapreq := by unfold State.driveRowAddress; split <;> rfl
@[simp] theorem State.driveRowAddress_back : (s.driveRowAddress).back = s.back := by unfold State.driveRowAddress; split <;> rfl
@[simp] theorem State.driveRowAddress_fb0 : (s.driveRowAddress).fb0 = s.fb0 := by unfold State.driveRowAddress; split <;> rfl
@[simp] theorem State.driveRowAddress_fb1 : (s.driveRowAddress).fb1 = s.fb1 := by unfold State.driveRowAddress; split <;> rfl
@[simp] theorem State.driveRowAddress_timer : (s.driveRowAddress).timer = s.timer := by unfold State.driveRowAddress; split <;> rfl
@[simp] theorem State.driveRowAddress_rsp : (s.driveRowAddress).rsp = s.rsp := by unfold State.driveRowAddress; split <;> rfl
@[simp] theorem State.driveRowAddress_rspValid : (s.driveRowAddress).rspValid = s.rspValid := by unfold State.driveRowAddress; split <;> rfl
@[simp] theorem State.driveRowAddress_suspended : (s.driveRowAddress).suspended = s.suspended := by unfold State.driveRowAddress; split <;> rfl
@[simp] theorem State.driveRowAddress_preempt : (s.driveRowAddress).preempt = s.preempt := by unfold State.driveRowAddress; split <;> rfl
@[simp] theorem State.driveRowAddress_inputs : (s.driveRowAddress).inputs = s.inputs := by unfold State.driveRowAddress; split <;> rfl
@[simp] theorem State.driveRowAddress_undriven : (s.driveRowAddress).undriven = s.undriven := by unfold State.driveRowAddress; split <;> rfl

/-! ### State.clearBuffers -/

@[simp] theorem State.clearBuffers_straps : (s.clearBuffers).straps = s.straps := by unfold State.clearBuffers; split <;> simp_all
@[simp] theorem State.clearBuffers_rot : (s.clearBuffers).rot = s.rot := by unfold State.clearBuffers; split <;> simp_all
@[simp] theorem State.clearBuffers_active : (s.clearBuffers).active = s.active := by unfold State.clearBuffers; split <;> simp_all
@[simp] theorem State.clearBuffers_plane : (s.clearBuffers).plane = s.plane := by unfold State.clearBuffers; split <;> simp_all
@[simp] theorem State.clearBuffers_row : (s.clearBuffers).row = s.row := by unfold State.clearBuffers; split <;> simp_all
@[simp] theorem State.clearBuffers_swapreq : (s.clearBuffers).swapreq = s.swapreq := by unfold State.clearBuffers; split <;> simp_all
@[simp] theorem State.clearBuffers_back : (s.clearBuffers).back = s.back := by unfold State.clearBuffers; split <;> simp_all
@[simp] theorem State.clearBuffers_fb0 : (s.clearBuffers).fb0 = s.fb0.clear s.fbSize := by unfold State.clearBuffers; split <;> simp_all
@[simp] theorem State.clearBuffers_fb1 : (s.clearBuffers).fb1 = if s.straps.dbuf then s.fb1.clear s.fbSize else s.fb1 := by unfold State.clearBuffers; split <;> simp_all
@[simp] theorem State.clearBuffers_pins : (s.clearBuffers).pins = s.pins := by unfold State.clearBuffers; split <;> simp_all
@[simp] theorem State.clearBuffers_timer : (s.clearBuffers).timer = s.timer := by unfold State.clearBuffers; split <;> simp_all
@[simp] theorem State.clearBuffers_out : (s.clearBuffers).out = s.out := by unfold State.clearBuffers; split <;> simp_all
@[simp] theorem State.clearBuffers_rsp : (s.clearBuffers).rsp = s.rsp := by unfold State.clearBuffers; split <;> simp_all
@[simp] theorem State.clearBuffers_rspValid : (s.clearBuffers).rspValid = s.rspValid := by unfold State.clearBuffers; split <;> simp_all
@[simp] theorem State.clearBuffers_suspended : (s.clearBuffers).suspended = s.suspended := by unfold State.clearBuffers; split <;> simp_all
@[simp] theorem State.clearBuffers_preempt : (s.clearBuffers).preempt = s.preempt := by unfold State.clearBuffers; split <;> simp_all
@[simp] theorem State.clearBuffers_inputs : (s.clearBuffers).inputs = s.inputs := by unfold State.clearBuffers; split <;> simp_all
@[simp] theorem State.clearBuffers_undriven : (s.clearBuffers).undriven = s.undriven := by unfold State.clearBuffers; split <;> simp_all

/-! ### A list of events -/

@[simp] theorem State.emitAll_nil : s.emitAll [] = s := rfl

@[simp] theorem State.emitAll_cons (e : Event) (es : List Event) : s.emitAll (e :: es) = (s.emit e).emitAll es := rfl

theorem State.emitAll_append (es fs : List Event) : s.emitAll (es ++ fs) = (s.emitAll es).emitAll fs := by
  simp [State.emitAll, List.foldl_append]

@[simp] theorem State.emitAll_out (es : List Event) : (s.emitAll es).out = s.out ++ es := by
  induction es generalizing s with
  | nil => simp
  | cons e es ih => simp [ih]

@[simp] theorem State.emitAll_pins (es : List Event) : (s.emitAll es).pins = es.foldl Pins.apply s.pins := by
  induction es generalizing s with
  | nil => rfl
  | cons e es ih => simp [ih]

@[simp] theorem State.emitAll_timer (es : List Event) : (s.emitAll es).timer = es.foldl Timer.apply s.timer := by
  induction es generalizing s with
  | nil => rfl
  | cons e es ih => simp [ih]

@[simp] theorem State.emitAll_straps (es : List Event) : (s.emitAll es).straps = s.straps := by
  induction es generalizing s with
  | nil => rfl
  | cons e es ih => simp [ih]

@[simp] theorem State.emitAll_rot (es : List Event) : (s.emitAll es).rot = s.rot := by
  induction es generalizing s with
  | nil => rfl
  | cons e es ih => simp [ih]

@[simp] theorem State.emitAll_active (es : List Event) : (s.emitAll es).active = s.active := by
  induction es generalizing s with
  | nil => rfl
  | cons e es ih => simp [ih]

@[simp] theorem State.emitAll_plane (es : List Event) : (s.emitAll es).plane = s.plane := by
  induction es generalizing s with
  | nil => rfl
  | cons e es ih => simp [ih]

@[simp] theorem State.emitAll_row (es : List Event) : (s.emitAll es).row = s.row := by
  induction es generalizing s with
  | nil => rfl
  | cons e es ih => simp [ih]

@[simp] theorem State.emitAll_swapreq (es : List Event) : (s.emitAll es).swapreq = s.swapreq := by
  induction es generalizing s with
  | nil => rfl
  | cons e es ih => simp [ih]

@[simp] theorem State.emitAll_back (es : List Event) : (s.emitAll es).back = s.back := by
  induction es generalizing s with
  | nil => rfl
  | cons e es ih => simp [ih]

@[simp] theorem State.emitAll_fb0 (es : List Event) : (s.emitAll es).fb0 = s.fb0 := by
  induction es generalizing s with
  | nil => rfl
  | cons e es ih => simp [ih]

@[simp] theorem State.emitAll_fb1 (es : List Event) : (s.emitAll es).fb1 = s.fb1 := by
  induction es generalizing s with
  | nil => rfl
  | cons e es ih => simp [ih]

@[simp] theorem State.emitAll_rsp (es : List Event) : (s.emitAll es).rsp = s.rsp := by
  induction es generalizing s with
  | nil => rfl
  | cons e es ih => simp [ih]

@[simp] theorem State.emitAll_rspValid (es : List Event) : (s.emitAll es).rspValid = s.rspValid := by
  induction es generalizing s with
  | nil => rfl
  | cons e es ih => simp [ih]

@[simp] theorem State.emitAll_suspended (es : List Event) : (s.emitAll es).suspended = s.suspended := by
  induction es generalizing s with
  | nil => rfl
  | cons e es ih => simp [ih]

@[simp] theorem State.emitAll_preempt (es : List Event) : (s.emitAll es).preempt = s.preempt := by
  induction es generalizing s with
  | nil => rfl
  | cons e es ih => simp [ih]

@[simp] theorem State.emitAll_inputs (es : List Event) : (s.emitAll es).inputs = s.inputs := by
  induction es generalizing s with
  | nil => rfl
  | cons e es ih => simp [ih]

@[simp] theorem State.emitAll_undriven (es : List Event) : (s.emitAll es).undriven = s.undriven := by
  induction es generalizing s with
  | nil => rfl
  | cons e es ih => simp [ih]

end Sys2Proof.Machine
end

