-- ==== Sys2Proof/Laws/Ops.lean ====
section
/-! SUPPORT. For each shared operation, once, everything it can do: framebuffer bytes, host accesses, the interruptible run of a host
operation, the cursor, the line, the turn. -/

namespace Sys2Proof.Machine

/-! ## Framebuffer bytes -/

theorem State.fb_setFb (s : State) (b b' : Buf) (m : Memory) : (s.setFb b m).fb b' = if b' = b then m else s.fb b' := by
  cases b <;> cases b' <;> rfl

theorem State.fb_memWrite (s : State) (b b' : Buf) (off : Nat) (v : Byte) :
    (s.memWrite b off v).fb b' = if b' = b then (s.fb b).write off v else s.fb b' :=
  s.fb_setFb b b' _

/-- The state's own canonical form, buffer by buffer. -/
theorem State.wf_fb (s : State) (h0 : s.fb0.wf = true) (h1 : s.fb1.wf = true) (b : Buf) : (s.fb b).wf = true := by
  cases b
  · exact h0
  · exact h1

/-- A read after a write: the written byte at its place, the old byte elsewhere. -/
theorem State.memRead_memWrite (s : State) (b : Buf) (off : Nat) (v : Byte) (h : (s.fb b).wf = true) (b' : Buf) (off' : Nat) :
    (s.memWrite b off v).memRead b' off' = if b' = b ∧ off' = off then v else s.memRead b' off' := by
  unfold State.memRead
  rw [State.fb_memWrite]
  by_cases hb : b' = b
  · subst hb
    simp [Memory.read_write _ _ _ h]
  · simp [hb]

theorem State.nrows_congr {s t : State} (h : t.straps = s.straps) : t.nrows = s.nrows := by
  unfold State.nrows; rw [h]

theorem State.fbSize_congr {s t : State} (h : t.straps = s.straps) : t.fbSize = s.fbSize := by
  unfold State.fbSize; rw [h]

theorem State.hasByte_congr {s t : State} (h : t.straps = s.straps) (b : Buf) (off : Nat) :
    t.hasByte b off = s.hasByte b off := by
  unfold State.hasByte State.fbSize; rw [h]

theorem Access.exists_congr {s t : State} (h : t.straps = s.straps) : Access.exists t = Access.exists s := by
  funext a
  cases a <;> exact State.hasByte_congr h _ _

/-- A write to a byte that exists keeps the buffers in form and within their size. -/
theorem State.BuffersFit.memWrite {s : State} (h : s.BuffersFit) (b : Buf) (off : Nat) (v : Byte)
    (hb : s.hasByte b off = true) : (s.memWrite b off v).BuffersFit := by
  simp only [State.hasByte, Bool.and_eq_true, decide_eq_true_eq, Bool.or_eq_true] at hb
  obtain ⟨h0, h1, h2, h3, h4⟩ := h
  cases b
  · exact ⟨Memory.wf_write _ _ _ h0, h1, Memory.within_write _ _ _ _ h2 hb.1, h3, h4⟩
  · refine ⟨h0, Memory.wf_write _ _ _ h1, h2, Memory.within_write _ _ _ _ h3 hb.1, fun hd => ?_⟩
    rcases hb.2 with hb | hb
    · have : s.straps.dbuf = false := hd
      rw [this] at hb; cases hb
    · cases hb

/-! ## Host accesses -/

/-- An access touches framebuffer bytes and the response port, nothing else. -/
theorem Access.after_control (s : State) (h : Byte) (a : Access) :
    s.SameControl (a.after s h) ∧ (a.after s h).suspended = s.suspended ∧ (a.after s h).preempt = s.preempt ∧
      (a.after s h).inputs = s.inputs ∧ (a.after s h).undriven = s.undriven := by
  cases a with
  | load b off => exact ⟨⟨rfl, rfl, rfl, rfl, rfl, rfl, rfl, rfl, rfl, rfl⟩, rfl, rfl, rfl, rfl⟩
  | store b off mask set =>
    cases b <;> exact ⟨⟨rfl, rfl, rfl, rfl, rfl, rfl, rfl, rfl, rfl, rfl⟩, rfl, rfl, rfl, rfl⟩
  | respond b off => exact ⟨⟨rfl, rfl, rfl, rfl, rfl, rfl, rfl, rfl, rfl, rfl⟩, rfl, rfl, rfl, rfl⟩

theorem State.SameControl.refl (s : State) : s.SameControl s :=
  ⟨rfl, rfl, rfl, rfl, rfl, rfl, rfl, rfl, rfl, rfl⟩

theorem State.SameControl.trans {s t u : State} (h : s.SameControl t) (k : t.SameControl u) : s.SameControl u :=
  ⟨k.straps.trans h.straps, k.rot.trans h.rot, k.active.trans h.active, k.plane.trans h.plane, k.row.trans h.row,
    k.swapreq.trans h.swapreq, k.back.trans h.back, k.pins.trans h.pins, k.timer.trans h.timer, k.out.trans h.out⟩

/-- An access to a byte that exists keeps the buffers in form. -/
theorem State.BuffersFit.after {s : State} (h : s.BuffersFit) (a : Access) (v : Byte) (ha : a.exists s = true) :
    (a.after s v).BuffersFit := by
  cases a with
  | load b off => exact h
  | store b off mask set => exact h.memWrite b off _ ha
  | respond b off => exact ⟨h.1, h.2, h.3, h.4, h.5⟩

/-- Accesses made one after another, none of them interrupted: the byte the host holds at the end, and the state. -/
def makeAccesses : List Access → Byte → State → Byte × State
  | [], h, s => (h, s)
  | a :: as, h, s => makeAccesses as (a.held s h) (a.after s h)

theorem makeAccesses_append (as bs : List Access) (h : Byte) (s : State) :
    makeAccesses (as ++ bs) h s = makeAccesses bs (makeAccesses as h s).1 (makeAccesses as h s).2 := by
  induction as generalizing h s with
  | nil => rfl
  | cons a as ih => exact ih _ _

/-- Accesses touch framebuffer bytes and the response port, nothing else. -/
theorem makeAccesses_control (as : List Access) (h : Byte) (s : State) :
    s.SameControl (makeAccesses as h s).2 ∧ (makeAccesses as h s).2.suspended = s.suspended ∧
      (makeAccesses as h s).2.preempt = s.preempt ∧ (makeAccesses as h s).2.inputs = s.inputs ∧
      (makeAccesses as h s).2.undriven = s.undriven := by
  induction as generalizing h s with
  | nil => exact ⟨.refl s, rfl, rfl, rfl, rfl⟩
  | cons a as ih =>
    obtain ⟨c1, c2, c3, c4, c5⟩ := a.after_control s h
    obtain ⟨k1, k2, k3, k4, k5⟩ := ih (a.held s h) (a.after s h)
    exact ⟨c1.trans k1, k2.trans c2, k3.trans c3, k4.trans c4, k5.trans c5⟩

/-- Accesses to bytes that exist keep the buffers in form. -/
theorem State.BuffersFit.makeAccesses {s : State} (h : s.BuffersFit) (as : List Access) (v : Byte)
    (ha : as.all (Access.exists s) = true) : (Machine.makeAccesses as v s).2.BuffersFit := by
  induction as generalizing v s with
  | nil => exact h
  | cons a as ih =>
    rw [List.all_cons, Bool.and_eq_true] at ha
    refine ih (h.after a v ha.1) _ ?_
    rw [Access.exists_congr (a.after_control s v).1.straps]
    exact ha.2

/-- Everything the run of a host operation can do: all its accesses, or a proper part of them, after which the running timer has expired
and the rest is kept. -/
theorem hostRun_cases (as : List Access) (cuts : List Nat) (h : Byte) (s : State) :
    hostRun as cuts h s = { (makeAccesses as h s).2 with preempt := [] } ∨
    ∃ made rest ks, as = made ++ rest ∧ rest ≠ [] ∧ s.timer.run = true ∧
      hostRun as cuts h s = { (makeAccesses made h s).2.expire with
        suspended := some ⟨(makeAccesses made h s).1, rest⟩, preempt := ks } := by
  induction as, cuts, h, s using hostRun.induct with
  | case1 cuts h s => exact .inl rfl
  | case2 a rest h s ih =>
    have hr := (a.after_control s h).1.timer
    rcases ih with ih | ⟨made, r, ks, h1, h2, h3, h4⟩
    · exact .inl ih
    · exact .inr ⟨a :: made, r, ks, by rw [h1]; rfl, h2, by rw [← hr]; exact h3, h4⟩
  | case3 a rest cuts h s hrun =>
    refine .inr ⟨[], a :: rest, cuts, rfl, by simp, hrun, ?_⟩
    simp [hostRun, hrun, makeAccesses]
  | case4 a rest cuts h s hrun ih =>
    have hr := (a.after_control s h).1.timer
    have hstep : hostRun (a :: rest) (0 :: cuts) h s = hostRun rest cuts (a.held s h) (a.after s h) := by
      simp [hostRun, hrun]
    rw [hstep]
    rcases ih with ih | ⟨made, r, ks, h1, h2, h3, h4⟩
    · exact .inl ih
    · exact .inr ⟨a :: made, r, ks, by rw [h1]; rfl, h2, by rw [← hr]; exact h3, h4⟩
  | case5 a rest k cuts h s ih =>
    have hr := (a.after_control s h).1.timer
    rcases ih with ih | ⟨made, r, ks, h1, h2, h3, h4⟩
    · exact .inl ih
    · exact .inr ⟨a :: made, r, ks, by rw [h1]; rfl, h2, by rw [← hr]; exact h3, h4⟩

/-- With no expiry to come every access is made. -/
theorem hostRun_nil (as : List Access) (h : Byte) (s : State) :
    hostRun as [] h s = { (makeAccesses as h s).2 with preempt := [] } := by
  induction as generalizing h s with
  | nil => rfl
  | cons a as ih => exact ih _ _

/-- With no expiry to come a host operation makes all its accesses. -/
theorem hostStart_of_no_preempt (as : List Access) (s : State) (h : s.preempt = []) :
    hostStart as s = { (makeAccesses as 0 s).2 with preempt := [] } := by
  cases as with
  | nil => rfl
  | cons a as => simp only [hostStart, h, hostRun_nil]; rfl

/-- Everything the start of a host operation can do. -/
theorem hostStart_cases (as : List Access) (s : State) :
    hostStart as s = { (makeAccesses as 0 s).2 with preempt := [] } ∨
    ∃ made rest ks, as = made ++ rest ∧ rest ≠ [] ∧ s.timer.run = true ∧
      hostStart as s = { (makeAccesses made 0 s).2.expire with
        suspended := some ⟨(makeAccesses made 0 s).1, rest⟩, preempt := ks } := by
  cases as with
  | nil => exact .inl rfl
  | cons a as =>
    have hr := (a.after_control s 0).1.timer
    rcases hostRun_cases as s.preempt (a.held s 0) (a.after s 0) with h | ⟨made, r, ks, h1, h2, h3, h4⟩
    · exact .inl h
    · exact .inr ⟨a :: made, r, ks, by rw [h1]; rfl, h2, by rw [← hr]; exact h3, h4⟩

/-- Everything a resumed operation can do. -/
theorem hostResume_cases (p : Progress) (s t : State) (h : hostResume p s = .next t) :
    p.todo.all (Access.exists s) = true ∧ t = hostRun p.todo s.preempt p.held { s with suspended := none } := by
  unfold hostResume at h
  split at h
  · rename_i hall
    exact ⟨hall, by injection h with h; exact h.symm⟩
  · cases h

/-- `RMW` makes one write (41_pixel_writer.md R86). -/
theorem makeAccesses_rmw (b : Buf) (o : Nat) (mask set h : Byte) (s : State) :
    (makeAccesses (rmw b o mask set) h s).2 = s.memWrite b o ((s.memRead b o &&& ~~~mask) ||| set) := rfl

/-- `RMW2` writes the cleared byte, then the byte with its new bits (41_pixel_writer.md R86). -/
theorem makeAccesses_rmw2 (b : Buf) (o : Nat) (mask set h : Byte) (s : State) :
    (makeAccesses (rmw2 b o mask set) h s).2 =
      (s.memWrite b o ((s.memRead b o &&& ~~~mask) ||| 0)).memWrite b o ((s.memRead b o &&& ~~~mask) ||| set) := rfl

/-! ## The cursor and the line -/

/-- Everything step 3 can do, with the cursor in range (42_scan_sequencer.md R99, R100). -/
theorem State.advanceCursor_cases (s : State) (hrow : s.row.toNat < s.nrows) :
    (s.plane.toNat < 3 ∧ s.advanceCursor = { s with plane := BitVec.ofNat 2 (s.plane.toNat + 1) }) ∨
    (s.plane.toNat = 3 ∧ s.row.toNat + 1 < s.nrows ∧
      s.advanceCursor = { s with plane := 0, row := BitVec.ofNat 4 (s.row.toNat + 1) }) ∨
    (s.plane.toNat = 3 ∧ s.row.toNat + 1 = s.nrows ∧ s.swapreq = true ∧
      s.advanceCursor = { s with plane := 0, row := 0, back := s.back.other, swapreq := false }) ∨
    (s.plane.toNat = 3 ∧ s.row.toNat + 1 = s.nrows ∧ s.swapreq = false ∧
      s.advanceCursor = { s with plane := 0, row := 0 }) := by
  have hp := s.plane.isLt
  unfold State.advanceCursor State.consumeSwap
  split
  · split
    · by_cases hs : s.swapreq = true
      · exact .inr (.inr (.inl ⟨by omega, by assumption, hs, by simp [hs]⟩))
      · exact .inr (.inr (.inr ⟨by omega, by assumption, by simpa using hs, by simp [hs]⟩))
    · exact .inr (.inl ⟨by omega, by omega, rfl⟩)
  · exact .inl ⟨by omega, rfl⟩

/-- The pins after the events of a line: the last column's colour lines, clock low, the rest as it was. -/
theorem lineEvents_pins (m : Memory) (plane row : Nat) (p : Pins) :
    (lineEvents m plane row).foldl Pins.apply p = { p with data := lineAt m plane row 31, clk := false } := by
  have h : List.range 32 = List.range 31 ++ [31] := List.range_succ
  unfold lineEvents
  rw [h, List.flatMap_append, List.foldl_append]
  have keep : ∀ cols : List Nat,
      ∃ d c, (cols.flatMap fun col => [Event.data (lineAt m plane row col), .clk true, .clk false]).foldl Pins.apply p
        = { p with data := d, clk := c } := by
    intro cols
    induction cols using List.reverseRecOn with
    | nil => exact ⟨p.data, p.clk, rfl⟩
    | append_singleton cols col ih =>
      obtain ⟨d, c, ih⟩ := ih
      refine ⟨lineAt m plane row col, false, ?_⟩
      rw [List.flatMap_append, List.foldl_append, ih]
      rfl
  obtain ⟨d, c, hk⟩ := keep (List.range 31)
  rw [hk]
  rfl

/-- The events of a line leave the timer alone. -/
theorem lineEvents_timer (m : Memory) (plane row : Nat) (t : Timer) :
    (lineEvents m plane row).foldl Timer.apply t = t := by
  unfold lineEvents
  induction List.range 32 with
  | nil => rfl
  | cons c cs ih => simpa [List.flatMap_cons, Timer.apply] using ih

/-! ## The turn -/

/-- Everything a step that answers a next state can be (60_exceptions.md R137, R138; 10_state.md R29). -/
theorem step_cases (s t : State) (h : step s = .next t) :
    (s.tickDue = true ∧ execTick s = .next t) ∨
    (s.tickDue = false ∧ ∃ p, s.suspended = some p ∧ hostResume p s = .next t) ∨
    (s.tickDue = false ∧ s.suspended = none ∧ s.inputs = [] ∧ t = s.expireIfRunning) ∨
    (s.tickDue = false ∧ s.suspended = none ∧ ∃ rest, s.inputs = .expire :: rest ∧
      t = { s.expireIfRunning with inputs := rest }) ∨
    (s.tickDue = false ∧ s.suspended = none ∧ ∃ r rest, s.inputs = .rot r :: rest ∧ t = { s with rot := r, inputs := rest }) ∨
    (s.tickDue = false ∧ s.suspended = none ∧ ∃ w cuts rest i, s.inputs = .command w cuts :: rest ∧
      decodeCommand w = .ok i ∧ exec i { s with inputs := rest, preempt := cuts } = .next t) := by
  unfold step State.turn at h
  by_cases hd : s.tickDue = true
  · rw [if_pos hd] at h
    exact .inl ⟨hd, h⟩
  · rw [if_neg hd] at h
    have hd' : s.tickDue = false := by simpa using hd
    cases hs : s.suspended with
    | some p =>
      rw [hs] at h
      exact .inr (.inl ⟨hd', p, rfl, h⟩)
    | none =>
      rw [hs] at h
      cases hi : s.inputs with
      | nil =>
        rw [hi] at h
        injection h with h
        exact .inr (.inr (.inl ⟨hd', rfl, rfl, h.symm⟩))
      | cons m rest =>
        rw [hi] at h
        cases m with
        | expire =>
          injection h with h
          exact .inr (.inr (.inr (.inl ⟨hd', rfl, rest, rfl, h.symm⟩)))
        | rot r =>
          injection h with h
          exact .inr (.inr (.inr (.inr (.inl ⟨hd', rfl, r, rest, rfl, h.symm⟩))))
        | command w cuts =>
          refine .inr (.inr (.inr (.inr (.inr ⟨hd', rfl, w, cuts, rest, ?_⟩))))
          cases hw : decodeCommand w with
          | ok i =>
            simp only [State.accept, hw] at h
            exact ⟨i, rfl, rfl, by rw [← hs]; exact h⟩
          | error e =>
            simp only [State.accept, hw] at h
            cases h

end Sys2Proof.Machine
end

