-- ==== Sys2Proof/Laws/PerInstr.lean ====
section
/-! SUPPORT. Statements made once for each operation. -/

namespace Sys2Proof.Laws

/-- The mnemonic of the operation table (30_encoding.md R60). -/
def mnemonic : Instr → String
  | .begin => "BEGIN"
  | .stop => "STOP"
  | .setPixel _ _ _ => "SETPIXEL"
  | .swapReq => "SWAPREQ"
  | .rdStat => "RDSTAT"
  | .copyFwd => "COPYFWD"
  | .bufRd _ => "BUFRD"
  | .bufWr _ _ => "BUFWR"
  | .tick => "TICK"

/-- The operation's encoding selects the row of its own mnemonic, or is the event (30_encoding.md R59, R61). -/
def RowMatch.Statement (i : Instr) : Prop :=
  (∃ w, encode i = .command w ∧ ∃ r ∈ commandTable, r.mnemonic = mnemonic i ∧ r.selects w = true) ∨
    (encode i = .event 1 ∧ mnemonic i = "TICK")

theorem RowMatch.begin : RowMatch.Statement .begin :=
  .inl ⟨_, rfl, commandTable[0], by simp [commandTable], rfl, by decide⟩

theorem RowMatch.stop : RowMatch.Statement .stop :=
  .inl ⟨_, rfl, commandTable[1], by simp [commandTable], rfl, by decide⟩

theorem RowMatch.setPixel (x y c : Half) : RowMatch.Statement (.setPixel x y c) := by
  refine .inl ⟨_, rfl, commandTable[2], by simp [commandTable], rfl, ?_⟩
  rw [Row.selects_iff _ 3 0xF 0 0 0 0 0 0 (by decide) (by decide)]
  simp

theorem RowMatch.swapReq : RowMatch.Statement .swapReq :=
  .inl ⟨_, rfl, commandTable[3], by simp [commandTable], rfl, by decide⟩

theorem RowMatch.rdStat : RowMatch.Statement .rdStat :=
  .inl ⟨_, rfl, commandTable[4], by simp [commandTable], rfl, by decide⟩

theorem RowMatch.copyFwd : RowMatch.Statement .copyFwd :=
  .inl ⟨_, rfl, commandTable[5], by simp [commandTable], rfl, by decide⟩

theorem RowMatch.bufRd (off : Half) : RowMatch.Statement (.bufRd off) := by
  refine .inl ⟨_, rfl, commandTable[6], by simp [commandTable], rfl, ?_⟩
  rw [Row.selects_iff _ 7 0xF 0 0 0 0xFFFF 0 0xFFFF (by decide) (by decide)]
  simp

theorem RowMatch.bufWr (off : Half) (v : Byte) : RowMatch.Statement (.bufWr off v) := by
  refine .inl ⟨_, rfl, commandTable[7], by simp [commandTable], rfl, ?_⟩
  rw [Row.selects_iff _ 8 0xF 0 0 0 0xFFFF 0 0xFF00 (by decide) (by decide)]
  refine ⟨by simp, by simp, by simp, ?_⟩
  rw [cmdC_cmdWord]
  have h : v.setWidth 16 &&& 0xFF00 = 0 := by
    revert v; decide
  exact h

theorem RowMatch.tick : RowMatch.Statement .tick := .inr ⟨rfl, rfl⟩

end Sys2Proof.Laws
end

