-- ==== Sys2Proof/Laws/Wait.lean ====
section
/-! SUPPORT. What the host's wait for a swap can do, said once: one read, the whole wait, `SWAPBUFFERS`. -/

namespace Sys2Proof.Machine

variable {α β : Type}

@[simp] theorem andThen_next (a : α) (f : α → Host.Outcome β Fault Refusal) : andThen (.next a) f = f a := rfl

/-- A sequence that answers a next state has done both its parts. -/
theorem andThen_eq_next (o : Host.Outcome α Fault Refusal) (f : α → Host.Outcome β Fault Refusal) (b : β)
    (h : andThen o f = .next b) : ∃ a, o = .next a ∧ f a = .next b := by
  cases o with
  | next a => exact ⟨a, rfl, h⟩
  | fault r => cases h
  | refused r => cases h

/-- The status byte is 0x00 exactly when no swap is pending (43_buffer_control.md R120). -/
theorem State.statusByte_eq_zero (s : State) : s.statusByte = 0x00 ↔ s.swapreq = false := by
  unfold State.statusByte
  cases s.swapreq <;> decide

/-- A `RDSTAT` that answers a next state has put the status byte on the port (43_buffer_control.md R120). -/
theorem exec_rdStat_cases (s t : State) (h : exec .rdStat s = .next t) :
    s.active = true ∧ t = s.respond s.statusByte := by
  change execRdStat s = _ at h
  unfold execRdStat at h
  split at h
  · rename_i ha
    exact ⟨ha, by injection h with h; exact h.symm⟩
  · cases h

/-- Everything a wait that answers can be: no read is left; or ticks and a read, which ends it when no swap is pending and goes on
otherwise. -/
theorem awaitSwap_cases (ns : List Nat) (s : State) (w : Waited) (h : awaitSwap ns s = .next w) :
    (ns = [] ∧ w = ⟨s, false⟩) ∨
    ∃ n rest s1, ns = n :: rest ∧ refresh n s = .next s1 ∧ s1.active = true ∧
      ((s1.swapreq = false ∧ w = ⟨s1.respond s1.statusByte, true⟩) ∨
        (s1.swapreq = true ∧ awaitSwap rest (s1.respond s1.statusByte) = .next w)) := by
  cases ns with
  | nil =>
    injection h with h
    exact .inl ⟨rfl, h.symm⟩
  | cons n rest =>
    obtain ⟨s1, h1, h⟩ := andThen_eq_next _ _ _ h
    obtain ⟨s2, h2, h⟩ := andThen_eq_next _ _ _ h
    obtain ⟨ha, rfl⟩ := exec_rdStat_cases _ _ h2
    refine .inr ⟨n, rest, s1, rfl, h1, ha, ?_⟩
    simp only [State.respond_rsp, State.statusByte_eq_zero] at h
    split at h
    · rename_i hs
      injection h with h
      exact .inl ⟨hs, h.symm⟩
    · rename_i hs
      exact .inr ⟨by simpa using hs, h⟩

/-- A wait that is over has made a read, and the last one returned 0x00. -/
theorem awaitSwap_done (ns : List Nat) (s : State) (w : Waited) (h : awaitSwap ns s = .next w) (hd : w.done = true) :
    ns ≠ [] ∧ w.state.swapreq = false ∧ w.state.rsp = 0x00 ∧ w.state.rspValid = true := by
  induction ns generalizing s with
  | nil =>
    obtain ⟨-, rfl⟩ | ⟨_, _, _, hn, -⟩ := awaitSwap_cases _ _ _ h
    · cases hd
    · cases hn
  | cons n rest ih =>
    obtain ⟨hn, -⟩ | ⟨_, _, s1, hn, -, -, ⟨hs, rfl⟩ | ⟨-, hr⟩⟩ := awaitSwap_cases _ _ _ h
    · cases hn
    · exact ⟨by simp, hs, s1.statusByte_eq_zero.mpr hs, rfl⟩
    · injection hn with _ hn
      subst hn
      exact ⟨by simp, (ih _ hr).2⟩

/-- Everything `SWAPBUFFERS` that answers can be (43_buffer_control.md R126). -/
theorem swapBuffers_cases (copy : Bool) (between : List Nat) (late : Nat) (s : State) (w : Waited)
    (h : swapBuffers copy between late s = .next w) :
    (s.straps.dbuf = false ∧ w = ⟨s, true⟩) ∨
    (s.straps.dbuf = true ∧ ∃ s1 w1, exec .swapReq s = .next s1 ∧ awaitSwap between s1 = .next w1 ∧
      ((¬ (w1.done = true ∧ copy = true) ∧ w = w1) ∨
        (w1.done = true ∧ copy = true ∧ ∃ s2 s3, refresh late w1.state = .next s2 ∧ exec .copyFwd s2 = .next s3 ∧
          w = ⟨s3, true⟩))) := by
  unfold swapBuffers at h
  split at h
  · rename_i hd
    obtain ⟨s1, h1, h⟩ := andThen_eq_next _ _ _ h
    obtain ⟨w1, h2, h⟩ := andThen_eq_next _ _ _ h
    refine .inr ⟨hd, s1, w1, h1, h2, ?_⟩
    split at h
    · rename_i hc
      rw [Bool.and_eq_true] at hc
      obtain ⟨s2, h3, h⟩ := andThen_eq_next _ _ _ h
      obtain ⟨s3, h4, h⟩ := andThen_eq_next _ _ _ h
      injection h with h
      exact .inr ⟨hc.1, hc.2, s2, s3, h3, h4, h.symm⟩
    · rename_i hc
      rw [Bool.and_eq_true] at hc
      injection h with h
      exact .inl ⟨hc, h.symm⟩
  · rename_i hd
    injection h with h
    exact .inl ⟨by simpa using hd, h.symm⟩

end Sys2Proof.Machine
end

