-- ==== Sys2Proof/Tests/Slice0.lean ====
section
/-! SUPPORT. Tests of one operation each, with results from the spec's own vectors (95_test_vectors.md), and a witness for every
statement that has hypotheses. -/

namespace Sys2Proof.Tests

open Sys2Proof Sys2Proof.Machine

/-! ## Small states -/

/-- Right after `BEGIN` (10_state.md R34). -/
def sOn : State :=
  { State.reset with active := true, plane := 3, row := 7, pins := ⟨true, false, false, 0, 0⟩, timer := ⟨100, true, false⟩ }

/-- The same instance without `DBUF`. -/
def sSingle : State := { sOn with straps := { Config.straps with dbuf := false } }

/-- The same with 16 scan rows. -/
def sTall : State := { sOn with straps := { Config.straps with nrows := .rows16 }, row := 15 }

/-- A due `TICK` with this cursor. -/
def sDue (plane : BitVec 2) (row : BitVec 4) : State := { sOn.expire with plane := plane, row := row }

/-- `sOn` with a command on the port. -/
def sCmd (w : CmdWord) : State := { sOn with inputs := [.command w []] }

/-- A `SETPIXEL` of P5 interrupted before its last access. -/
def sHeld : State := { sOn with suspended := some ⟨0x1C, [.store .fb0 64 0x1C 0]⟩ }

/-- A panel whose shift stages hold anything. -/
def somePanel (p : Pins) : Panel := ⟨List.replicate 32 0x2A, List.replicate 32 0x15, p⟩

/-- A check of the next state of an outcome. -/
def nextIs (o : Host.Outcome State Fault Refusal) (f : State → Bool) : Bool :=
  match o with
  | .next s => f s
  | .fault _ => false
  | .refused _ => false

/-- A check of the refusal of an outcome. -/
def refusedAs (o : Host.Outcome State Fault Refusal) (r : Refusal) : Bool :=
  match o with
  | .next _ => false
  | .fault _ => false
  | .refused r' => decide (r' = r)

/-! ## WellFormed: an ill-formed term for each check, and the boundary -/

theorem test_wellFormed_bufRd_refuses : (Instr.bufRd 768).wellFormed .rows8 = false := by decide
theorem test_wellFormed_bufWr_refuses : (Instr.bufWr 1536 0).wellFormed .rows16 = false := by decide
theorem test_wellFormed_bufRd_last_byte : (Instr.bufRd 767).wellFormed .rows8 = true := by decide
theorem test_wellFormed_bufWr_last_byte : (Instr.bufWr 1535 0).wellFormed .rows16 = true := by decide

/-! ## Decoding: the words of 95_test_vectors.md sections 2.2, 3.4 and 4 -/

theorem test_decode_begin : decodeCommand 0x1000000000000 = .ok .begin := by decide
theorem test_decode_stop : decodeCommand 0x2000000000000 = .ok .stop := by decide
theorem test_decode_setPixel : decodeCommand 0x3001F0008F800 = .ok (.setPixel 31 8 0xF800) := by decide
theorem test_decode_setPixel_negative : decodeCommand 0x30000FFFFFFFF = .ok (.setPixel 0 (-1) 0xFFFF) := by decide
theorem test_decode_swapReq : decodeCommand 0x4000000000000 = .ok .swapReq := by decide
theorem test_decode_rdStat : decodeCommand 0x5000000000000 = .ok .rdStat := by decide
theorem test_decode_copyFwd : decodeCommand 0x6000000000000 = .ok .copyFwd := by decide
theorem test_decode_bufRd : decodeCommand 0x7018500000000 = .ok (.bufRd 389) := by decide
theorem test_decode_bufWr : decodeCommand 0x80000000000FF = .ok (.bufWr 0 0xFF) := by decide
theorem test_decode_tick : decodeEvent 1 = .ok .tick := by decide
theorem test_decode_reserved_zero : decodeCommand 0 = .error .reservedOpcode := by decide
theorem test_decode_reserved_nine : decodeCommand 0x9000000000000 = .error .reservedOpcode := by decide
theorem test_decode_unused_field : decodeCommand 0x4000000000001 = .error .unusedFieldNotZero := by decide
theorem test_decode_bufWr_high_byte : decodeCommand 0x8000000000100 = .error .unusedFieldNotZero := by decide
theorem test_encode_setPixel : encode (.setPixel 5 11 0xA5C6) = .command 0x30005000BA5C6 := by decide
theorem test_encode_bufWr : encode (.bufWr 64 0x05) = .command 0x8004000000005 := by decide

/-! ## Operations: vectors S8, S16, S21, T2, T9, F-series bytes, B1 to B11 -/

theorem test_setPixel_S8 : nextIs (exec (.setPixel 5 3 0xA5C6) sOn)
    (fun t => t.fb0 = [(293, 0x1C), (325, 0x01), (357, 0x0E)] && t.fb1 = []) = true := by decide +kernel

theorem test_setPixel_S16 : nextIs
    (exec (.setPixel 5 3 0x0000) { sOn with fb0 := [(293, 0xFF), (325, 0xFF), (357, 0xFF)] })
    (fun t => t.fb0 = [(293, 0xE3), (325, 0xE2), (357, 0xE0)]) = true := by decide +kernel

theorem test_setPixel_rotated_T9 : nextIs (exec (.setPixel 3 5 0xF800) { sOn with rot := 3 })
    (fun t => t.fb0 = [(389, 0x20), (421, 0x22), (453, 0x20)]) = true := by decide +kernel

theorem test_setPixel_rotated_T5 : nextIs (exec (.setPixel 16 0 0xF800) { sOn with rot := 1 })
    (fun t => t.fb0 = [] && !t.rspValid) = true := by decide +kernel

theorem test_setPixel_tall_S20 : nextIs (exec (.setPixel 0 16 0x001F) sTall)
    (fun t => t.fb0 = [(0, 0x82), (32, 0x80), (64, 0x80)]) = true := by decide +kernel

/-- P5: the expiry falls after six accesses, with both plane-0 updates made. -/
theorem test_setPixel_interrupted_P5 : nextIs
    (exec (.setPixel 0 0 0x0000) { sSingle with fb0 := [(0, 0x1C), (32, 0x1D), (64, 0x1F)], preempt := [5] })
    (fun t => t.fb0 = [(0, 0x1C), (32, 0x1C), (64, 0x1C)] && t.timer.pending && t.suspended.isSome) = true := by
  decide +kernel

theorem test_swapReq_B1 : nextIs (exec .swapReq sOn) (fun t => t.swapreq) = true := by decide
theorem test_swapReq_B3 : nextIs (exec .swapReq sSingle) (fun t => !t.swapreq) = true := by decide
theorem test_rdStat_B4 : nextIs (exec .rdStat { sOn with swapreq := true }) (fun t => t.rsp = 0x01 && t.rspValid) = true := by
  decide
theorem test_copyFwd_B6 : nextIs (exec .copyFwd { sOn with fb1 := [(64, 0x05)], fb0 := [(3, 0x11)] })
    (fun t => t.fb0 = [(64, 0x05)] && t.fb1 = [(64, 0x05)]) = true := by decide +kernel
theorem test_bufWr_B7 : nextIs (exec (.bufWr 64 0x05) sOn) (fun t => t.fb0 = [(64, 0x05)]) = true := by decide +kernel
theorem test_bufRd_B8 : nextIs (exec (.bufRd 64) { sOn with fb0 := [(64, 0x05)] }) (fun t => t.rsp = 0x05) = true := by
  decide +kernel
theorem test_bufRd_B9 : refusedAs (exec (.bufRd 768) sOn) .offsetOutsideBuffer = true := by decide
theorem test_setPixel_B10 : refusedAs (exec (.setPixel 0 0 0) State.reset) .notActive = true := by decide
theorem test_begin_B11 : refusedAs (exec .begin sOn) .alreadyActive = true := by decide

/-- P1, after `BEGIN`: cursor (3, 7), panel blanked, timer armed with 100, six events. -/
theorem test_begin_P1 : nextIs (exec .begin State.reset)
    (fun t => t.plane = 3 && t.row = 7 && t.pins.blank && t.timer.period = 100 && t.out.length = 6 && t.active) = true := by
  decide +kernel

theorem test_stop : nextIs (exec .stop sOn) (fun t => t.out = [.tmrStop, .blank true] && !t.active && !t.timer.run) = true := by
  decide

/-- P1, tick 1: the swap, no `ADDR`, interval 2500, column 0 of the new front buffer. -/
theorem test_tick_P1 : nextIs
    (exec .tick { sDue 3 7 with swapreq := true, fb0 := [(0, 0x04), (32, 0x04), (64, 0x05)] })
    (fun t => t.back = .fb1 && !t.swapreq && t.out.length = 101 &&
      t.out.take 9 = [.blank true, .lat true, .tmr 2500, .blank false, .lat false, .data 0x01, .clk true, .clk false,
        .data 0x00]) = true := by decide +kernel

/-- The worked example of 42_scan_sequencer.md: cursor (0, 2), byte 197 = 0x1C. -/
theorem test_tick_row_address : nextIs (exec .tick { sDue 0 2 with fb1 := [(197, 0x1C)] })
    (fun t => t.plane = 1 && t.row = 2 && t.pins.addr = 2 && t.timer.period = 260 && t.out.length = 102 &&
      t.out.drop 21 = .data 0x07 :: (t.out.drop 22)) = true := by decide +kernel

/-- 40_address_decoder.md, worked example, and the last byte of 95_test_vectors.md 2.1. -/
theorem test_decoder_example : fbAddr .bottom 3 5 2 .green = (325, 6) := by decide
theorem test_decoder_last : fbAddr .bottom 15 31 3 .blue = (1535, 7) := by decide
/-- 95_test_vectors.md 3.1. -/
theorem test_durations : (List.range 4).map (duration Config.straps) = [260, 580, 1220, 2500] := by decide
/-- 95_test_vectors.md 3.3, cursor (0, 0), columns 0 and 31. -/
theorem test_line_plane_zero : lineAt [(0, 0x1C), (31, 0x20), (32, 0x1D), (63, 0x22), (64, 0x1F), (95, 0x20)] 0 0 0 = 0x07 ∧
    lineAt [(0, 0x1C), (31, 0x20), (32, 0x1D), (63, 0x22), (64, 0x1F), (95, 0x20)] 0 0 31 = 0x08 := by decide

/-! ## SWAPBUFFERS: the worked example of 43_buffer_control.md, and a wait with no tick -/

/-- A read before the first tick returns 0x01; the first tick is a frame boundary, the second read returns 0x00, the copy follows. -/
theorem test_swapBuffers_copy : (match swapBuffers true [0, 1, 5] 0 { sOn with fb0 := [(0, 0x04), (32, 0x04), (64, 0x05)] } with
    | .next w => w.done && w.state.back = .fb1 && !w.state.swapreq && w.state.fb1 = [(0, 0x04), (32, 0x04), (64, 0x05)] &&
        w.state.fb0 = w.state.fb1 && w.state.out.length = 101
    | .fault _ => false
    | .refused _ => false) = true := by decide +kernel

/-- Reads with no tick between them all return 0x01: the wait goes on and nothing is copied. -/
theorem test_swapBuffers_waits : (match swapBuffers true [0, 0] 0 { sOn with fb1 := [(1, 0x04)] } with
    | .next w => !w.done && w.state.rsp = 0x01 && w.state.swapreq && w.state.fb0 = []
    | .fault _ => false
    | .refused _ => false) = true := by decide +kernel

/-! ## The written form -/

theorem test_readLine_setPixel :
    readLine ['S', 'E', 'T', 'P', 'I', 'X', 'E', 'L', ' ', '-', '1', ',', ' ', '0', ',', ' ', '0', 'x', 'F', '8', '0', '0', ' ', ';']
      = some (.op (.setPixel (-1) 0 0xF800) none) := by decide +kernel
theorem test_readLine_directive : readLine ['.', 'n', 'r', 'o', 'w', 's', ' ', '1', '6'] = some (.nrows .rows16) := by decide +kernel
theorem test_load_sets_instance : (loadProgram [.dbuf false, .timing 1 0, .op .begin none, .op .tick none]).map
    (fun s => (s.straps.dbuf, s.straps.baseLoopTicks, s.inputs)) =
      some (false, 1, [.command 0x1000000000000 [], .expire]) := by decide +kernel

/-! ## The interface: every table row decodes and runs as the first step after reset -/

theorem test_table_rows_run : [(56, 0x1000000000000), (56, 0x2000000000000), (56, 0x3000000000000), (56, 0x4000000000000),
    (56, 0x5000000000000), (56, 0x6000000000000), (56, 0x7000000000000), (56, 0x8000000000000), (8, 1)].all
      (fun r => nextIs (step (State.reset.withFetchWord r.1 r.2)) (fun _ => true)) = true := by decide +kernel

/-! ## States that meet the statements' hypotheses -/

theorem buffersFit_empty (s : State) (h0 : s.fb0 = []) (h1 : s.fb1 = []) : s.BuffersFit := by
  refine ⟨?_, ?_, ?_, ?_, fun _ => h1⟩ <;> first | rw [h0] | rw [h1]
  all_goals rfl

theorem sOn_running : sOn.Running :=
  ⟨by decide, by decide, by decide, by decide, by decide, by decide, by decide, by decide, by decide⟩

theorem sOn_inv : sOn.Inv :=
  ⟨buffersFit_empty _ rfl rfl, fun _ => sOn_running, (fun h => nomatch h), (fun _ h => nomatch h)⟩

theorem sSingle_inv : sSingle.Inv :=
  ⟨buffersFit_empty _ rfl rfl,
    fun _ => ⟨by decide, by decide, by decide, by decide, by decide, by decide, by decide, by decide, by decide⟩,
    (fun h => nomatch h), (fun _ h => nomatch h)⟩

theorem sDue_inv : (sDue 3 7).Inv :=
  ⟨buffersFit_empty _ rfl rfl,
    fun _ => ⟨by decide, by decide, by decide, by decide, by decide, by decide, by decide, by decide, by decide⟩,
    (fun h => nomatch h), (fun _ h => nomatch h)⟩

theorem sSwap_inv : ({ sOn with swapreq := true } : State).Inv :=
  ⟨buffersFit_empty _ rfl rfl,
    fun _ => ⟨by decide, by decide, by decide, by decide, by decide, by decide, by decide, by decide, by decide⟩,
    (fun h => nomatch h), (fun _ h => nomatch h)⟩

theorem reset_inv : State.reset.Inv :=
  ⟨buffersFit_empty _ rfl rfl, (fun h => nomatch h), (fun _ => ⟨rfl, rfl, rfl⟩), (fun _ h => nomatch h)⟩

theorem witness_EncodeInvertsDecodeCommand : decodeCommand 0x7017A00000000 = .ok (.bufRd 378) := by decide

theorem witness_ReservedWordsRefused_op0 : (sCmd 0).tickDue = false ∧ (sCmd 0).suspended = none ∧
    (sCmd 0).inputs = [.command 0 []] ∧ cmdOp 0 = 0 := by decide

theorem witness_ReservedWordsRefused_op9 : (sCmd 0x9000000000000).tickDue = false ∧ (sCmd 0x9000000000000).suspended = none ∧
    (sCmd 0x9000000000000).inputs = [.command 0x9000000000000 []] ∧ 9 ≤ (cmdOp 0x9000000000000).toNat := by decide

theorem witness_ReservedWordsRefused_field : (sCmd 0x4000000000001).tickDue = false ∧ (sCmd 0x4000000000001).suspended = none ∧
    (sCmd 0x4000000000001).inputs = [.command 0x4000000000001 []] ∧
    ¬ (cmdOp 0x4000000000001 = 0 ∨ 9 ≤ (cmdOp 0x4000000000001).toNat) ∧ ∀ i, encode i ≠ .command 0x4000000000001 := by
  refine ⟨by decide, by decide, by decide, by decide, fun i h => ?_⟩
  have hw : (0x4000000000001 : CmdWord) = cmdWord 4 0 0 1 := by decide
  rw [hw] at h
  cases i <;> simp [encode, cmdWord_inj] at h

theorem witness_StepRunsPresentedCommand : (sCmd 0x4000000000000).tickDue = false ∧ (sCmd 0x4000000000000).suspended = none ∧
    (sCmd 0x4000000000000).inputs = .command 0x4000000000000 [] :: [] ∧ decodeCommand 0x4000000000000 = .ok .swapReq := by
  decide

theorem witness_StepTakesPendingTickFirst : (sDue 3 7).active = true ∧ (sDue 3 7).timer.pending = true := by decide

theorem witness_StepResumesInterruptedOperation : sHeld.tickDue = false ∧
    sHeld.suspended = some ⟨0x1C, [.store .fb0 64 0x1C 0]⟩ ∧
    [Access.store .fb0 64 0x1C 0].all (Access.exists sHeld) = true := by decide

theorem witness_TimerExpiresOnce_scripted : ({ sOn with inputs := [.expire] } : State).tickDue = false ∧
    ({ sOn with inputs := [.expire] } : State).suspended = none ∧ sOn.timer.run = true := by decide

theorem witness_TimerExpiresOnce_stopped : ({ State.reset with inputs := [.expire] } : State).tickDue = false ∧
    ({ State.reset with inputs := [.expire] } : State).suspended = none ∧ State.reset.timer.run = false := by decide

theorem witness_TimerExpiresOnce_idle : sOn.tickDue = false ∧ sOn.suspended = none ∧ sOn.inputs = [] ∧ sOn.timer.run = true := by
  decide

theorem witness_TimerExpiresOnce_nothing : State.reset.tickDue = false ∧ State.reset.suspended = none ∧
    State.reset.inputs = [] ∧ State.reset.timer.run = false := by decide

theorem witness_StoredWordRunsNext : decodeTableWord 56 0x3000000000000 = some (.setPixel 0 0 0) ∧
    decodeTableWord 8 1 = some .tick := by decide

theorem witness_BeginInitialises_active : sOn.active = true := rfl
theorem witness_BeginInitialises : State.reset.active = false ∧ State.reset.fb0.wf = true ∧ State.reset.fb1.wf = true := by decide

theorem witness_BeginIsFullReinitialisation : State.reset.Inv ∧ State.reset.active = false := ⟨reset_inv, rfl⟩

theorem witness_StopShutsDown : sOn.active = true ∧ State.reset.active = false ∧ Instr.tick ≠ .begin := by decide

theorem witness_OnlyBeginActivates_begin :
    ∃ t, step { State.reset with inputs := [.command 0x1000000000000 []] } = .next t ∧ t.active = true ∧
      State.reset.active = false := ⟨_, rfl, rfl, rfl⟩

theorem witness_OnlyBeginActivates_idle : ∃ t, step State.reset = .next t ∧ t.active = false ∧ State.reset.active = false :=
  ⟨_, rfl, rfl, rfl⟩

theorem witness_RefusedSituations : State.reset.active = false ∧ Instr.swapReq ≠ .begin ∧ sOn.active = true ∧
    sOn.fbSize ≤ (768 : Half).toNat := by decide

theorem witness_ResponsePortDriven_rdStat : ∃ t, exec .rdStat sOn = .next t := ⟨_, rfl⟩
theorem witness_ResponsePortDriven_bufRd : ∃ t, exec (.bufRd 767) sOn = .next t := ⟨_, rfl⟩
theorem witness_ResponsePortDriven_other : ∃ t, exec .swapReq sOn = .next t ∧ Instr.swapReq ≠ .rdStat := ⟨_, rfl, by decide⟩

theorem witness_SwapReqSetsFlag : sOn.active = true ∧ State.reset.active = false := by decide
theorem witness_RdStatReadsFlag : sOn.active = true := by decide
theorem witness_CopyFwdCopiesFrontToBack : sOn.active = true ∧ sOn.preempt = [] ∧ sOn.fb0.wf = true ∧ sOn.fb1.wf = true ∧
    sOn.straps.dbuf = true ∧ 767 < sOn.fbSize := by decide
theorem witness_CopyFwdCopiesFrontToBack_single : sSingle.active = true ∧ sSingle.preempt = [] ∧ sSingle.fb0.wf = true ∧
    sSingle.fb1.wf = true ∧ sSingle.straps.dbuf = false := by decide
theorem witness_BufRdWr_refused : State.reset.active = false ∧ sOn.active = true ∧ sOn.fbSize ≤ (768 : Half).toNat := by decide
theorem witness_BufRdReadsBackBuffer : sOn.active = true ∧ (767 : Half).toNat < sOn.fbSize := by decide
theorem witness_BufWrWritesOneByte : sOn.active = true ∧ (767 : Half).toNat < sOn.fbSize ∧ sOn.fb0.wf = true ∧
    sOn.fb1.wf = true := by decide
theorem witness_WriteThenReadReturnsValue : sOn.fb0.wf = true ∧ sOn.fb1.wf = true ∧ ∃ t, exec (.bufWr 767 9) sOn = .next t :=
  ⟨by decide, by decide, _, rfl⟩
theorem witness_HostNeverWritesFrontBuffer : sOn.straps.dbuf = true ∧ Instr.bufWr 0 1 ≠ .begin ∧
    ∃ t, exec (.bufWr 0 1) sOn = .next t := ⟨by decide, by decide, _, rfl⟩
theorem witness_SingleBufferAlias : sSingle.Inv ∧ sSingle.active = true ∧ sSingle.straps.dbuf = false :=
  ⟨sSingle_inv, rfl, rfl⟩

theorem witness_DecoderFormulas : 1 ≤ 1 ∧ 1 ≤ 3 := by decide
theorem witness_DecoderStaysInBuffer : 15 < RowCount.rows16.toNat ∧ 31 < 32 ∧ 3 < 4 := by decide
theorem witness_DecoderBijective : 1535 < RowCount.rows16.fbSize ∧ 7 < 8 := by decide
theorem witness_ScanAgreesWithDecoder : 0 < 4 ∧ 3 < 4 := by decide
theorem witness_LineFormulas : 1 ≤ 1 ∧ 5 < 6 := by decide

theorem witness_SetPixelOutOfRangeIsNoOp_upright : sOn.active = true ∧ (sOn.rot = 0 ∨ sOn.rot = 2) ∧
    (32 : Int) ≤ (32 : Half).toInt ∧ (-1 : Half).toInt < 0 := by decide
theorem witness_SetPixelOutOfRangeIsNoOp_turned : ({ sOn with rot := 1 } : State).active = true ∧
    (({ sOn with rot := 1 } : State).rot = 1 ∨ ({ sOn with rot := 1 } : State).rot = 3) ∧
    (2 * sOn.nrows : Int) ≤ (16 : Half).toInt := by decide
theorem witness_RotationOneToOne : 31 < (logicalExtent .rows8 0).1 ∧ 15 < (logicalExtent .rows8 0).2 ∧ 15 < 2 * RowCount.rows8.toNat := by
  decide
theorem witness_SetPixelRoundTrip_top : sOn.active = true ∧ sOn.preempt = [] ∧ sOn.fb0.wf = true ∧ sOn.fb1.wf = true ∧
    inBounds sOn.straps.nrows sOn.rot 31 7 = true ∧ rotate sOn.straps.nrows sOn.rot (31 : Half).toNat (7 : Half).toNat = (31, 7) := by
  decide
theorem witness_SetPixelRoundTrip_bottom : sOn.active = true ∧ sOn.preempt = [] ∧ sOn.fb0.wf = true ∧ sOn.fb1.wf = true ∧
    inBounds sOn.straps.nrows sOn.rot 31 8 = true ∧ rotate sOn.straps.nrows sOn.rot (31 : Half).toNat (8 : Half).toNat = (31, 8) := by
  decide
theorem witness_SetPixelTouchesThreeBytes : sOn.active = true ∧ sOn.preempt = [] ∧ sOn.BuffersFit ∧
    inBounds sOn.straps.nrows sOn.rot 31 15 = true ∧
    fbBase (scanRowOf sOn.straps.nrows (rotate sOn.straps.nrows sOn.rot (31 : Half).toNat (15 : Half).toNat).2)
      (rotate sOn.straps.nrows sOn.rot (31 : Half).toNat (15 : Half).toNat).1 = 703 :=
  ⟨rfl, rfl, buffersFit_empty _ rfl rfl, by decide, by decide⟩
theorem witness_DiscardedColourBitsHaveNoEffect : (0x0861 : Half) &&& 0xF79E = (0x0000 : Half) &&& 0xF79E := by decide
theorem witness_LastPixelWriteWins : sOn.BuffersFit ∧ sOn.preempt = [] ∧ ∃ t, exec (.setPixel 5 3 0xFFFF) sOn = .next t :=
  ⟨buffersFit_empty _ rfl rfl, rfl, _, rfl⟩
theorem witness_FillScreenSetsEveryPixel : sOn.active = true ∧ sOn.preempt = [] ∧ sOn.BuffersFit ∧ 31 < 32 ∧ 15 < 2 * sOn.nrows :=
  ⟨rfl, rfl, buffersFit_empty _ rfl rfl, by decide, by decide⟩
theorem witness_FillScreenFastPath : sOn.active = true ∧ sOn.preempt = [] ∧ sOn.BuffersFit ∧ 767 < sOn.fbSize :=
  ⟨rfl, rfl, buffersFit_empty _ rfl rfl, by decide⟩

theorem witness_ExpirySuspendsSetPixel : ({ sOn with preempt := [10] } : State).active = true ∧
    ({ sOn with preempt := [10] } : State).timer.run = true ∧
    inBounds sOn.straps.nrows sOn.rot 0 0 = true ∧ ({ sOn with preempt := [10] } : State).preempt = 10 :: [] ∧ 10 < 11 := by decide

theorem sCut_inv : ({ sOn with preempt := [5] } : State).Inv :=
  ⟨buffersFit_empty _ rfl rfl,
    fun _ => ⟨by decide, by decide, by decide, by decide, by decide, by decide, by decide, by decide, by decide⟩,
    (fun h => nomatch h), (fun _ h => nomatch h)⟩

theorem witness_InterruptedOperationSameMemory : ({ sOn with preempt := [5] } : State).Inv ∧ sOn.active = true ∧
    sOn.timer.pending = false ∧ sOn.suspended = none ∧ (∃ a, exec (.setPixel 0 0 0xFFFF) sOn = .next a) ∧
    ∃ t0, exec (.setPixel 0 0 0xFFFF) { sOn with preempt := [5] } = .next t0 :=
  ⟨sCut_inv, rfl, rfl, rfl, ⟨_, rfl⟩, ⟨_, rfl⟩⟩

/-- The hypotheses of TickSweepsOneLine, TickArmsDurationOfEntryPlane, TickIgnoresPinsAtEntry and of the clauses of
TickAdvancesCursor, SwapOnlyAtFrameBoundary and RowAddressDrivenOncePerRow, at the cursors where they meet. -/
theorem witness_Tick_inside_row : (sDue 2 7).active = true ∧ (sDue 2 7).timer.pending = true ∧
    (sDue 2 7).row.toNat < (sDue 2 7).nrows ∧ (sDue 2 7).plane.toNat < 3 := by decide
theorem witness_Tick_to_plane_one : (sDue 0 7).active = true ∧ (sDue 0 7).timer.pending = true ∧
    (sDue 0 7).row.toNat < (sDue 0 7).nrows ∧ (sDue 0 7).plane = 0 ∧
    nextIs (exec .tick (sDue 0 7)) (fun t => t.plane = 1) = true := by decide +kernel
theorem witness_Tick_row_end : (sDue 3 6).active = true ∧ (sDue 3 6).timer.pending = true ∧
    (sDue 3 6).row.toNat < (sDue 3 6).nrows ∧ (sDue 3 6).plane.toNat = 3 ∧ (sDue 3 6).row.toNat + 1 < (sDue 3 6).nrows := by decide
theorem witness_Tick_frame_end : (sDue 3 7).active = true ∧ (sDue 3 7).timer.pending = true ∧
    (sDue 3 7).row.toNat < (sDue 3 7).nrows ∧ (sDue 3 7).plane.toNat = 3 ∧ (sDue 3 7).row.toNat + 1 = (sDue 3 7).nrows := by decide
theorem witness_Tick_swap : ({ sDue 3 7 with swapreq := true } : State).active = true ∧
    ({ sDue 3 7 with swapreq := true } : State).timer.pending = true ∧
    ({ sDue 3 7 with swapreq := true } : State).plane = 3 ∧ ({ sDue 3 7 with swapreq := true } : State).row.toNat + 1 = sOn.nrows ∧
    ({ sDue 3 7 with swapreq := true } : State).swapreq = true := by decide
theorem witness_TickOnlyOnItsEvent : ¬ (sOn.active = true ∧ sOn.timer.pending = true) ∧
    (sDue 0 8).active = true ∧ (sDue 0 8).timer.pending = true ∧ (sDue 0 8).nrows ≤ (sDue 0 8).row.toNat := by decide
theorem witness_DurationsDouble : 2 < 3 ∧ 3 < 4 := by decide
theorem witness_FrameIsFourNRowsTicks : sOn.Inv ∧ sOn.active = true ∧ sOn.timer.run = true := ⟨sOn_inv, rfl, rfl⟩
theorem witness_SwapConsumedWithinOneFrame : ({ sOn with swapreq := true } : State).Inv ∧ sOn.active = true ∧
    sOn.timer.run = true ∧ ({ sOn with swapreq := true } : State).swapreq = true := ⟨sSwap_inv, rfl, rfl, rfl⟩
theorem witness_SwapBuffersGuarantee : sOn.Inv ∧ sOn.active = true ∧ sOn.timer.run = true ∧ sOn.straps.dbuf = true ∧
    sOn.preempt = [] ∧ 4 * sOn.nrows ≤ [0, 32].sum ∧ ∃ s1, exec .swapReq sOn = .next s1 ∧ nextIs (refresh 1 s1) (fun t => !t.swapreq) = true :=
  ⟨sOn_inv, rfl, rfl, rfl, rfl, by decide, _, rfl, by decide +kernel⟩

/-- Both outcomes of the wait occur: over at the first read after the frame boundary, and not over before it. -/
theorem witness_SwapBuffersGuarantee_outcomes :
    (∃ w, swapBuffers false [1] 0 sOn = .next w ∧ w.done = true) ∧ ∃ w, swapBuffers false [0] 0 sOn = .next w ∧ w.done = false := by
  constructor
  · exact ⟨_, rfl, rfl⟩
  · exact ⟨_, rfl, rfl⟩

/-- The hypotheses of ShiftRegistersHoldTheLine and PanelShowsStoredPlane. -/
theorem witness_Panel : (sDue 3 7).Inv ∧ (sDue 3 7).active = true ∧ (sDue 3 7).timer.pending = true ∧
    (somePanel (sDue 3 7).pins).sr.length = 32 ∧ (somePanel (sDue 3 7).pins).pins = (sDue 3 7).pins :=
  ⟨sDue_inv, rfl, rfl, by decide, rfl⟩

theorem witness_StepKeepsInvariant : (sDue 3 7).Inv ∧ ∃ t, step (sDue 3 7) = .next t := ⟨sDue_inv, _, rfl⟩
theorem witness_InvariantStateNeverFaults : sOn.Inv := sOn_inv
theorem witness_OutReplaysPins : ∃ t, step (sDue 3 7) = .next t := ⟨_, rfl⟩
theorem witness_StrapsNeverChange : ∃ t, step sOn = .next t := ⟨_, rfl⟩
theorem witness_OnlyTickMovesCursor_host : (sCmd 0x4000000000000).active = true ∧
    (∃ t, step (sCmd 0x4000000000000) = .next t) ∧ (sCmd 0x4000000000000).timer.pending = false := ⟨rfl, ⟨_, rfl⟩, rfl⟩
theorem witness_OnlyTickMovesCursor_tick : (sDue 3 7).active = true ∧ (∃ t, step (sDue 3 7) = .next t) ∧
    (sDue 3 7).timer.pending = true := ⟨rfl, ⟨_, rfl⟩, rfl⟩

end Sys2Proof.Tests
end

