-- ==== Sys2Proof/Proofs/Straps.lean ====
section
/-! PROOFS. What each operation answers when it answers a next state, and that no move of the machine writes the straps
(10_state.md R28). -/

namespace Sys2Proof.Machine

/-! ## The operations, when they answer a next state -/

theorem execBegin_eq_next_iff (s t : State) :
    execBegin s = .next t ↔ s.active = false ∧
      t = { (({ s.undriveRsp.clearBuffers with
          plane := 3, row := BitVec.ofNat 4 (s.nrows - 1), swapreq := false, back := .fb0 } : State).configurePins.enterTick.emit
            (.tmr (BitVec.ofNat 16 s.straps.firstInterval))) with active := true } := by
  unfold execBegin
  split
  · rename_i hactive
    simp [hactive]
  · rename_i hactive
    exact ⟨fun h => ⟨by simpa using hactive, (Host.Outcome.next.inj h).symm⟩, fun h => congrArg _ h.2.symm⟩

theorem execStop_eq_next_iff (s t : State) :
    execStop s = .next t ↔
      s.active = true ∧ t = { s.undriveRsp.emitAll [.tmrStop, .blank true] with active := false } := by
  unfold execStop
  cases s.active <;> simp [eq_comm]

theorem execSetPixel_eq_next_iff (x y c : Half) (s t : State) :
    execSetPixel x y c s = .next t ↔ s.active = true ∧ t = hostStart (s.setPixelAccesses x y c) s.undriveRsp := by
  unfold execSetPixel
  cases s.active <;> simp [eq_comm]

theorem execSwapReq_eq_next_iff (s t : State) :
    execSwapReq s = .next t ↔ s.active = true ∧ t = s.undriveRsp.requestSwap := by
  unfold execSwapReq
  cases s.active <;> simp [eq_comm]

theorem execCopyFwd_eq_next_iff (s t : State) :
    execCopyFwd s = .next t ↔ s.active = true ∧ t = hostStart s.copyForwardAccesses s.undriveRsp := by
  unfold execCopyFwd
  cases s.active <;> simp [eq_comm]

theorem execBufRd_eq_next_iff (off : Half) (s t : State) :
    execBufRd off s = .next t ↔
      s.active = true ∧ off.toNat < s.fbSize ∧ t = hostStart [.respond s.bk off.toNat] s := by
  unfold execBufRd
  by_cases hoff : off.toNat < s.fbSize <;> cases s.active <;> simp [hoff, eq_comm]

theorem execBufWr_eq_next_iff (off : Half) (v : Byte) (s t : State) :
    execBufWr off v s = .next t ↔
      s.active = true ∧ off.toNat < s.fbSize ∧ t = hostStart [.store s.bk off.toNat 0xFF v] s.undriveRsp := by
  unfold execBufWr
  by_cases hoff : off.toNat < s.fbSize <;> cases s.active <;> simp [hoff, eq_comm]

theorem execTick_eq_next_iff (s t : State) :
    execTick s = .next t ↔ s.tickDue = true ∧ s.row.toNat < s.nrows ∧ t = s.sweep := by
  unfold execTick
  by_cases hrow : s.row.toNat < s.nrows <;> cases s.tickDue <;> simp [hrow, eq_comm]

/-! ## The straps through the shared operations -/

@[simp] theorem State.configurePins_straps (s : State) : s.configurePins.straps = s.straps := by
  rw [State.configurePins, State.emitAll_straps]

@[simp] theorem State.blankAndLatch_straps (s : State) : s.blankAndLatch.straps = s.straps := by
  rw [State.blankAndLatch, State.emitAll_straps]

@[simp] theorem State.rearmAndShow_straps (s : State) (d : Nat) : (s.rearmAndShow d).straps = s.straps := by
  rw [State.rearmAndShow, State.emitAll_straps]

@[simp] theorem State.emitLine_straps (s : State) : s.emitLine.straps = s.straps := by
  rw [State.emitLine, State.emitAll_straps]

@[simp] theorem State.sweep_straps (s : State) : s.sweep.straps = s.straps := by
  simp [State.sweep]

@[simp] theorem State.expireIfRunning_straps (s : State) : s.expireIfRunning.straps = s.straps := by
  unfold State.expireIfRunning
  split
  · exact s.expire_straps
  · rfl

@[simp] theorem makeAccesses_straps (as : List Access) (h : Byte) (s : State) :
    (makeAccesses as h s).2.straps = s.straps :=
  (makeAccesses_control as h s).1.straps

/-- Interrupted or not, a host operation's accesses leave the straps. -/
@[simp] theorem hostRun_straps (as : List Access) (cuts : List Nat) (h : Byte) (s : State) :
    (hostRun as cuts h s).straps = s.straps := by
  obtain hrun | ⟨made, rest, ks, -, -, -, hrun⟩ := hostRun_cases as cuts h s
  · rw [hrun]; exact makeAccesses_straps as h s
  · rw [hrun]; exact makeAccesses_straps made h s

@[simp] theorem hostStart_straps (as : List Access) (s : State) : (hostStart as s).straps = s.straps := by
  obtain hrun | ⟨made, rest, ks, -, -, -, hrun⟩ := hostStart_cases as s
  · rw [hrun]; exact makeAccesses_straps as 0 s
  · rw [hrun]; exact makeAccesses_straps made 0 s

theorem hostResume_straps {p : Progress} {s t : State} (h : hostResume p s = .next t) : t.straps = s.straps := by
  obtain ⟨-, rfl⟩ := hostResume_cases p s t h
  exact hostRun_straps ..

/-! ## The straps through an operation and a step -/

/-- No operation writes the straps. -/
theorem exec_straps {i : Instr} {s t : State} (h : exec i s = .next t) : t.straps = s.straps := by
  cases i with
  | begin =>
    obtain ⟨-, rfl⟩ := (execBegin_eq_next_iff s t).1 h
    simp
  | stop =>
    obtain ⟨-, rfl⟩ := (execStop_eq_next_iff s t).1 h
    simp
  | setPixel x y c =>
    obtain ⟨-, rfl⟩ := (execSetPixel_eq_next_iff x y c s t).1 h
    simp
  | swapReq =>
    obtain ⟨-, rfl⟩ := (execSwapReq_eq_next_iff s t).1 h
    simp
  | rdStat =>
    obtain ⟨-, rfl⟩ := exec_rdStat_cases s t h
    simp
  | copyFwd =>
    obtain ⟨-, rfl⟩ := (execCopyFwd_eq_next_iff s t).1 h
    simp
  | bufRd off =>
    obtain ⟨-, -, rfl⟩ := (execBufRd_eq_next_iff off s t).1 h
    simp
  | bufWr off v =>
    obtain ⟨-, -, rfl⟩ := (execBufWr_eq_next_iff off v s t).1 h
    simp
  | tick =>
    obtain ⟨-, -, rfl⟩ := (execTick_eq_next_iff s t).1 h
    simp

/-- No move of the machine or of the world outside writes the straps. -/
theorem step_straps {s t : State} (h : step s = .next t) : t.straps = s.straps := by
  obtain ⟨-, htick⟩ | ⟨-, p, -, hres⟩ | ⟨-, -, -, rfl⟩ | ⟨-, -, rest, -, rfl⟩ | ⟨-, -, r, rest, -, rfl⟩ |
    ⟨-, -, w, cuts, rest, i, -, -, hexec⟩ := step_cases s t h
  · exact exec_straps (i := .tick) htick
  · exact hostResume_straps hres
  · exact s.expireIfRunning_straps
  · exact s.expireIfRunning_straps
  · rfl
  · exact exec_straps (s := { s with inputs := rest, preempt := cuts }) hexec

/-- Settles O59: every kind of move keeps the straps, by the cases of a step. -/
theorem strapsNeverChange : Obligations.StrapsNeverChange := by
  unfold Obligations.StrapsNeverChange
  exact fun _ _ h => step_straps h

end Sys2Proof.Machine
end

