-- ==== Sys2Proof/Proofs/Decoder.lean ====
section
/-! PROOFS. The address decoder: its base, and one equation for each of its two branches, plane 0 and planes 1 to 3
(40_address_decoder.md R71 to R73). -/

namespace Sys2Proof.Machine

theorem fbBase_eq (row col : Nat) : fbBase row col = row * 96 + col := rfl

/-- Plane 0 stands where the table of R73 puts it (40_address_decoder.md R73). -/
theorem fbAddr_plane_zero (half : HalfPanel) (row col : Nat) (ch : Channel) :
    fbAddr half row col 0 ch =
      (row * 96 + col + (planeZeroPlace half ch).1, (planeZeroPlace half ch).2) := by
  rw [fbAddr.eq_def, if_pos rfl, fbBase_eq]

/-- Planes 1 to 3 stand one byte per plane, in a field of three bits for each half (40_address_decoder.md R72). -/
theorem fbAddr_of_plane_pos (half : HalfPanel) (row col : Nat) {p : Nat} (ch : Channel) (hp : 1 ≤ p) :
    fbAddr half row col p ch = (row * 96 + col + (p - 1) * 32, 2 + 3 * half.num + ch.num) := by
  rw [fbAddr.eq_def, if_neg (Nat.one_le_iff_ne_zero.mp hp), fbBase_eq]
  cases half with
  | top => rfl
  | bottom => rfl

/-- Settles O26, clause by clause: the base, the fields of planes 1 to 3, and the six places of plane 0's table. -/
theorem decoderFormulas : Obligations.DecoderFormulas := by
  unfold Obligations.DecoderFormulas
  refine ⟨fbBase_eq, fun row col p ch hp => ⟨?top, ?bottom⟩, fun row col => ?planeZero⟩
  case top => exact fbAddr_of_plane_pos .top row col ch hp
  case bottom => exact fbAddr_of_plane_pos .bottom row col ch hp
  case planeZero => simp [fbAddr_plane_zero, planeZeroPlace]

end Sys2Proof.Machine
end

/-! PROOFS. The pixel writer's colour truncation, its logical extent for the two pairs of rotations, its bounds test, and what
`SETPIXEL` does when that test fails (41_pixel_writer.md R81, R82, R84). -/

namespace Sys2Proof.Machine

/-! ## Colour -/

/-- Four bits of a colour, from bit `lo` up: the value shifted down to that bit, modulo the field's size. -/
theorem toNat_colourField (c : Half) (lo : Nat) : (c.extractLsb' lo 4).toNat = c.toNat / 2 ^ lo % 16 := by
  rw [BitVec.extractLsb'_toNat, Nat.shiftRight_eq_div_pow]

/-- Settles O31, a channel at a time. The red field ends where the word ends, so there the modulus drops out. -/
theorem colourTruncation : Obligations.ColourTruncation := by
  unfold Obligations.ColourTruncation
  intro c
  refine ⟨?red, ?green, ?blue⟩
  case red =>
    have hfits : c.toNat / 2 ^ 12 < 16 := Nat.div_lt_of_lt_mul c.isLt
    exact (toNat_colourField c 12).trans (Nat.mod_eq_of_lt hfits)
  case green => exact toNat_colourField c 7
  case blue => exact toNat_colourField c 1

/-! ## The bounds test -/

/-- A rotation keeps the panel upright or turns it on its side. -/
theorem rot_upright_or_turned (rot : BitVec 2) : (rot = 0 ∨ rot = 2) ∨ rot = 1 ∨ rot = 3 := by
  revert rot
  decide

theorem logicalExtent_of_upright (n : RowCount) {rot : BitVec 2} (h : rot = 0 ∨ rot = 2) :
    logicalExtent n rot = (32, 2 * n.toNat) := if_pos h

theorem logicalExtent_of_turned (n : RowCount) {rot : BitVec 2} (h : rot = 1 ∨ rot = 3) :
    logicalExtent n rot = (2 * n.toNat, 32) := by
  obtain rfl | rfl := h
  · rfl
  · rfl

/-- The bounds test fails exactly when one signed coordinate lies outside the logical extent (41_pixel_writer.md R82). -/
theorem inBounds_eq_false_iff (n : RowCount) (rot : BitVec 2) (x y : Half) :
    inBounds n rot x y = false ↔
      x.toInt < 0 ∨ (logicalExtent n rot).1 ≤ x.toInt ∨ y.toInt < 0 ∨ (logicalExtent n rot).2 ≤ y.toInt := by
  rw [inBounds, decide_eq_false_iff_not]
  omega

/-! ## `SETPIXEL` out of bounds -/

theorem exec_setPixel (x y c : Half) (s : State) : exec (.setPixel x y c) s = execSetPixel x y c s := rfl

theorem State.setPixelAccesses_of_outOfBounds {s : State} {x y : Half} (c : Half)
    (h : inBounds s.straps.nrows s.rot x y = false) : s.setPixelAccesses x y c = [] := by
  rw [State.setPixelAccesses, h]
  rfl

/-- A `SETPIXEL` that fails the bounds test makes no access: it ends at once and leaves only the port undriven. -/
theorem exec_setPixel_of_outOfBounds {s : State} {x y : Half} (c : Half) (hactive : s.active = true)
    (h : inBounds s.straps.nrows s.rot x y = false) :
    exec (.setPixel x y c) s = .next { s.undriveRsp with preempt := [] } := by
  rw [exec_setPixel, execSetPixel_eq_next_iff]
  refine ⟨hactive, ?_⟩
  rw [State.setPixelAccesses_of_outOfBounds c h, hostStart]

/-- Settles O32: the extent of either pair of rotations is the one the bounds test reads, so the test fails and no access is made. -/
theorem setPixelOutOfRangeIsNoOp : Obligations.SetPixelOutOfRangeIsNoOp := by
  unfold Obligations.SetPixelOutOfRangeIsNoOp
  intro s x y c lw lh hactive hupright hturned hout
  have hextent : lw = (logicalExtent s.straps.nrows s.rot).1 ∧ lh = (logicalExtent s.straps.nrows s.rot).2 := by
    obtain hrot | hrot := rot_upright_or_turned s.rot
    · rw [logicalExtent_of_upright _ hrot]
      simpa [State.nrows] using hupright hrot
    · rw [logicalExtent_of_turned _ hrot]
      simpa [State.nrows] using hturned hrot
  obtain ⟨rfl, rfl⟩ := hextent
  exact exec_setPixel_of_outOfBounds c hactive ((inBounds_eq_false_iff ..).2 hout)

end Sys2Proof.Machine

/-! PROOFS. The scan sequencer: the scan line bit by bit (42_scan_sequencer.md R105, R106), and what a `TICK` leaves in the cursor, in
the timer, on the row-address lines and in `Out` (R96 to R104). -/

namespace Sys2Proof.Machine

/-! ## The scan line -/

/-- Planes 1 to 3: the upper six bits of one byte (42_scan_sequencer.md R105). -/
theorem lineAt_of_plane_pos (m : Memory) (row col : Nat) {plane : Nat} (hp : 1 ≤ plane) :
    lineAt m plane row col = (m.read (row * 96 + (plane - 1) * 32 + col)).extractLsb' 2 6 :=
  if_neg (Nat.one_le_iff_ne_zero.mp hp)

/-- Plane 0: line `k` is one of the two low bits of three bytes, the last byte's first (42_scan_sequencer.md R106). -/
theorem getLsbD_lineAt_plane_zero (m : Memory) (row col : Nat) {k : Nat} (hk : k < 6) :
    (lineAt m 0 row col).getLsbD k =
      if k < 2 then (m.read (row * 96 + col + 64)).getLsbD k
      else if k - 2 < 2 then (m.read (row * 96 + col + 32)).getLsbD (k - 2)
      else (m.read (row * 96 + col)).getLsbD (k - 2 - 2) := by
  have hjoin : (lineAt m 0 row col).getLsbD k =
      if k < 2 then ((m.read (row * 96 + col + 64)).extractLsb' 0 2).getLsbD k
      else ((m.read (row * 96 + col)).extractLsb' 0 2 ++ (m.read (row * 96 + col + 32)).extractLsb' 0 2).getLsbD (k - 2) :=
    BitVec.getLsbD_append
  rw [hjoin, BitVec.getLsbD_append]
  simp only [BitVec.getLsbD_extractLsb', Nat.zero_add]
  have hlast : k - 2 - 2 < 2 := by omega
  by_cases hfirst : k < 2
  · simp [hfirst]
  · by_cases hmiddle : k - 2 < 2 <;> simp [hfirst, hmiddle, hlast]

/-- Settles O30: a line of planes 1 to 3 is one field of a byte; a line of plane 0 is three fields joined, the lowest last. -/
theorem lineFormulas : Obligations.LineFormulas := by
  unfold Obligations.LineFormulas
  refine ⟨fun m plane row col k hp hk => ?planesOneToThree, fun m row col => ?planeZero⟩
  case planesOneToThree =>
    rw [lineAt_of_plane_pos m row col hp, BitVec.getLsbD_extractLsb', Nat.add_comm 2 k]
    simp [hk]
  case planeZero => refine ⟨?_, ?_, ?_, ?_, ?_, ?_⟩ <;> exact getLsbD_lineAt_plane_zero m row col (by decide)

/-! ## The interval of step 2 -/

theorem duration_eq (p : Straps) (plane : Nat) :
    duration p plane = 2 ^ plane * (p.baseLoopTicks + 2 * p.callOverhead) - p.callOverhead := by
  rw [duration, Nat.shiftLeft_eq, Nat.mul_comm]

/-- The subtraction does not reach 0: one `B + 2*C` already exceeds `C` (42_scan_sequencer.md R98). -/
theorem one_le_duration (p : Straps) (plane : Nat) : 1 ≤ duration p plane := by
  have hscale : p.baseLoopTicks + 2 * p.callOverhead ≤ 2 ^ plane * (p.baseLoopTicks + 2 * p.callOverhead) :=
    Nat.le_mul_of_pos_left _ (Nat.two_pow_pos plane)
  have hpos := p.duration_pos
  rw [duration_eq]
  omega

/-- The interval of the longest plane bounds the others, and it fits `tmr_period` (42_scan_sequencer.md R98). -/
theorem duration_lt (p : Straps) {plane : Nat} (hp : plane < 4) : duration p plane < 2 ^ 16 := by
  have hscale : 2 ^ plane * (p.baseLoopTicks + 2 * p.callOverhead) ≤ 2 ^ 3 * (p.baseLoopTicks + 2 * p.callOverhead) :=
    Nat.mul_le_mul_right _ (Nat.pow_le_pow_right (by decide) (Nat.le_of_lt_succ hp))
  have hfits := p.duration_fits
  rw [duration_eq]
  omega

/-! ## The steps of a `TICK`, one by one -/

theorem exec_tick (s : State) : exec .tick s = execTick s := rfl

/-- A due `TICK` with its cursor in range runs its six steps (42_scan_sequencer.md R94, R95). -/
theorem exec_tick_of_due {s : State} (hactive : s.active = true) (hpending : s.timer.pending = true)
    (hrow : s.row.toNat < s.nrows) : exec .tick s = .next s.sweep := by
  rw [exec_tick, execTick_eq_next_iff]
  exact ⟨by simp [State.tickDue, hactive, hpending], hrow, rfl⟩

/-- Every scan row number fits the row register (10_state.md R17). -/
theorem State.nrows_le (s : State) : s.nrows ≤ 2 ^ 4 := by
  rw [State.nrows]
  cases s.straps.nrows <;> decide

/-- The cursor reaches plane 1 from plane 0, inside a row (42_scan_sequencer.md R99). -/
theorem State.advanceCursor_row_of_plane_one {s : State} (hrow : s.row.toNat < s.nrows) (h : s.advanceCursor.plane = 1) :
    s.advanceCursor.row = s.row := by
  obtain ⟨-, hc⟩ | ⟨-, -, hc⟩ | ⟨-, -, -, hc⟩ | ⟨-, -, -, hc⟩ := s.advanceCursor_cases hrow
  · rw [hc]
  all_goals
    simp [hc] at h

/-- The events of step 4 at the new cursor (42_scan_sequencer.md R102). -/
def rowAddressEvents (plane : BitVec 2) (row : BitVec 4) : List Event := if plane = 1 then [.addr row] else []

theorem State.driveRowAddress_eq_emitAll (s : State) : s.driveRowAddress = s.emitAll (rowAddressEvents s.plane s.row) := by
  unfold State.driveRowAddress rowAddressEvents
  split <;> rfl

theorem State.fb_emitAll (s : State) (es : List Event) : (s.emitAll es).fb = s.fb := by
  funext b
  cases b with
  | fb0 => exact s.emitAll_fb0 es
  | fb1 => exact s.emitAll_fb1 es

theorem State.fr_emitAll (s : State) (es : List Event) : (s.emitAll es).fr = s.fr := by
  simp [State.fr]

/-- Step 3 neither reads nor writes the pins, the timer and `Out` (42_scan_sequencer.md R99, R100). -/
theorem State.advanceCursor_with_outputs (s : State) (p : Pins) (t : Timer) (es : List Event) :
    ({ s with pins := p, timer := t, out := es } : State).advanceCursor =
      { s.advanceCursor with pins := p, timer := t, out := es } := by
  simp only [State.advanceCursor, State.consumeSwap, State.nrows]
  split
  · split
    · split <;> rfl
    · rfl
  · rfl

theorem State.advanceCursor_enterTick (s : State) : s.enterTick.advanceCursor = s.advanceCursor.enterTick := by
  rw [State.enterTick, State.advanceCursor_with_outputs s s.pins _ s.out]
  simp [State.enterTick]

theorem State.advanceCursor_emit (s : State) (e : Event) : (s.emit e).advanceCursor = s.advanceCursor.emit e := by
  simp [State.emit, State.advanceCursor_with_outputs]

theorem State.advanceCursor_emitAll (s : State) (es : List Event) :
    (s.emitAll es).advanceCursor = s.advanceCursor.emitAll es := by
  induction es generalizing s with
  | nil => rfl
  | cons e es ih => simp [ih, State.advanceCursor_emit]

/-- What a `TICK` emits, read off the state whose cursor has advanced. -/
def State.sweepEvents (s : State) : List Event :=
  [.blank true, .lat true] ++ (rowAddressEvents s.advanceCursor.plane s.advanceCursor.row ++
    ([.tmr (BitVec.ofNat 16 (duration s.straps s.plane.toNat)), .blank false, .lat false] ++
      lineEvents (s.advanceCursor.fb s.advanceCursor.fr) s.advanceCursor.plane.toNat s.advanceCursor.row.toNat))

/-- Emitting moves no cursor and no buffer, so a `TICK` is one move of the cursor and one list of events. -/
theorem State.sweep_eq (s : State) : s.sweep = (s.advanceCursor.enterTick.emitAll s.sweepEvents).leaveTick := by
  simp only [State.sweep, State.sweepEvents, State.blankAndLatch, State.rearmAndShow, State.emitLine,
    State.advanceCursor_emitAll, State.advanceCursor_enterTick, State.driveRowAddress_eq_emitAll, State.emitAll_append,
    State.fb_emitAll, State.fr_emitAll, State.emitAll_plane, State.emitAll_row, State.enterTick_plane, State.enterTick_row]
  rfl

/-! ## What a `TICK` leaves -/

@[simp] theorem State.sweep_plane (s : State) : s.sweep.plane = s.advanceCursor.plane := by
  simp [State.sweep_eq]

@[simp] theorem State.sweep_row (s : State) : s.sweep.row = s.advanceCursor.row := by
  simp [State.sweep_eq]

@[simp] theorem State.sweep_out (s : State) : s.sweep.out = s.out ++ s.sweepEvents := by
  simp [State.sweep_eq]

/-- The interval of the plane at entry is armed, and the timer runs (42_scan_sequencer.md R97, R103). -/
theorem State.sweep_timer (s : State) :
    s.sweep.timer = ⟨BitVec.ofNat 16 (duration s.straps s.plane.toNat), true, false⟩ := by
  simp only [State.sweep_eq, State.sweepEvents, rowAddressEvents]
  split <;> simp [lineEvents_timer, Timer.apply]

/-- Only step 4 writes the row-address lines (42_scan_sequencer.md R102). -/
theorem State.sweep_addr (s : State) :
    s.sweep.pins.addr = if s.advanceCursor.plane = 1 then s.advanceCursor.row else s.pins.addr := by
  simp only [State.sweep_eq, State.sweepEvents, rowAddressEvents]
  split <;> simp [lineEvents_pins, Pins.apply]

/-! ## The row address in the events -/

theorem rowsDriven_append (es fs : List Event) : rowsDriven (es ++ fs) = rowsDriven es ++ rowsDriven fs :=
  List.filterMap_append

theorem rowsDriven_lineEvents (m : Memory) (plane row : Nat) : rowsDriven (lineEvents m plane row) = [] := by
  rw [rowsDriven, List.filterMap_eq_nil_iff]
  intro e he
  obtain ⟨col, -, he⟩ := List.mem_flatMap.1 he
  simp only [List.mem_cons, List.not_mem_nil, or_false] at he
  obtain rfl | rfl | rfl := he <;> rfl

/-- A `TICK` drives a row address in step 4 alone (42_scan_sequencer.md R102). -/
theorem State.rowsDriven_sweepEvents (s : State) :
    rowsDriven s.sweepEvents = rowsDriven (rowAddressEvents s.advanceCursor.plane s.advanceCursor.row) := by
  simp only [State.sweepEvents, rowsDriven_append, rowsDriven_lineEvents]
  simp [rowsDriven]

/-! ## The obligations of steps 2 to 4 -/

/-- Settles O44: the armed interval is the duration of the plane at entry, which fits the register. -/
theorem tickArmsDurationOfEntryPlane : Obligations.TickArmsDurationOfEntryPlane := by
  unfold Obligations.TickArmsDurationOfEntryPlane
  intro s hactive hpending hrow
  have hperiod : s.sweep.timer.period.toNat = duration s.straps s.plane.toNat := by
    rw [State.sweep_timer, BitVec.toNat_ofNat]
    exact Nat.mod_eq_of_lt (duration_lt s.straps s.plane.isLt)
  refine ⟨s.sweep, exec_tick_of_due hactive hpending hrow, hperiod, ?_, ?_⟩
  · rw [hperiod]
    exact one_le_duration s.straps s.plane.toNat
  · rw [State.sweep_timer]

/-- Settles O45, by the cases of step 3: inside a row, at its end, and at the end of the frame with or without a swap. -/
theorem tickAdvancesCursor : Obligations.TickAdvancesCursor := by
  unfold Obligations.TickAdvancesCursor
  intro s hactive hpending hrow
  refine ⟨s.sweep, exec_tick_of_due hactive hpending hrow, ?_⟩
  rw [State.sweep_plane, State.sweep_row]
  obtain ⟨hplane, hc⟩ | ⟨hplane, hnext, hc⟩ | ⟨hplane, hlast, -, hc⟩ | ⟨hplane, hlast, -, hc⟩ :=
    s.advanceCursor_cases hrow <;> rw [hc]
  · refine ⟨fun _ => ⟨?_, rfl⟩, fun _ => by omega, fun _ => by omega⟩
    exact (BitVec.toNat_ofNat ..).trans (Nat.mod_eq_of_lt (by omega))
  · have hrow4 : s.row.toNat + 1 < 2 ^ 4 := hnext.trans_le s.nrows_le
    refine ⟨fun _ => by omega, fun _ _ => ⟨rfl, ?_⟩, fun _ _ => by omega⟩
    exact (BitVec.toNat_ofNat ..).trans (Nat.mod_eq_of_lt hrow4)
  all_goals
    exact ⟨fun _ => by omega, fun _ _ => by omega, fun _ _ => ⟨rfl, rfl⟩⟩

/-- Settles O47: a `TICK` to plane 1 has step 4 drive the row it is in; any other leaves step 4 out. -/
theorem rowAddressDrivenOncePerRow : Obligations.RowAddressDrivenOncePerRow := by
  unfold Obligations.RowAddressDrivenOncePerRow
  intro s hactive hpending hrow
  refine ⟨s.sweep, s.sweepEvents, exec_tick_of_due hactive hpending hrow, s.sweep_out, ?planeOne, ?otherPlane⟩
  case planeOne =>
    intro hplane
    rw [State.sweep_plane] at hplane
    have hevents : rowAddressEvents s.advanceCursor.plane s.advanceCursor.row = [.addr s.advanceCursor.row] := if_pos hplane
    rw [State.sweep_row, State.sweep_addr, if_pos hplane, State.rowsDriven_sweepEvents, State.sweepEvents, hevents]
    exact ⟨State.advanceCursor_row_of_plane_one hrow hplane, rfl, rfl, rfl⟩
  case otherPlane =>
    intro hplane
    rw [State.sweep_plane] at hplane
    have hevents : rowAddressEvents s.advanceCursor.plane s.advanceCursor.row = [] := if_neg hplane
    rw [State.sweep_addr, if_neg hplane, State.rowsDriven_sweepEvents, hevents]
    exact ⟨rfl, rfl⟩

end Sys2Proof.Machine

/-! PROOFS. The decoder's rows: a row is told by its op field, so the row that selects a word is the one the decoder reads
(30_encoding.md R60, R61). -/

namespace Sys2Proof

theorem cmdOp_and (w w' : CmdWord) : cmdOp (w &&& w') = cmdOp w &&& cmdOp w' :=
  BitVec.extractLsb'_and

/-- Every row compares the whole op field. -/
theorem cmdOp_mask_of_mem {r : Row} (hr : r ∈ commandTable) : cmdOp r.mask = 0xF := by
  have hrows : ∀ r ∈ commandTable, cmdOp r.mask = 0xF := by decide
  exact hrows r hr

theorem cmdOp_eq_of_selects {r : Row} {w : CmdWord} (hr : r ∈ commandTable) (h : r.selects w = true) :
    cmdOp w = cmdOp r.pattern := by
  have hmasked : w &&& r.mask = r.pattern := of_decide_eq_true h
  have hall : cmdOp w &&& 0xF = cmdOp w := BitVec.and_allOnes
  rw [← hmasked, cmdOp_and, cmdOp_mask_of_mem hr, hall]

/-- No two rows share an op code (30_encoding.md R60). -/
theorem eq_of_cmdOp_pattern_eq {r r' : Row} (hr : r ∈ commandTable) (hr' : r' ∈ commandTable)
    (h : cmdOp r.pattern = cmdOp r'.pattern) : r = r' := by
  have hnodup : (commandTable.map fun r => cmdOp r.pattern).Nodup := by decide
  exact List.inj_on_of_nodup_map hnodup hr hr' h

/-- The row that selects a word is the one whose operands the decoder reads: there is one, and no second. -/
theorem decodeCommand_of_selects {r : Row} {w : CmdWord} (hr : r ∈ commandTable) (h : r.selects w = true) :
    decodeCommand w = .ok (r.read w) := by
  rw [decodeCommand]
  cases hfind : commandTable.find? (fun r => r.selects w) with
  | none => exact absurd h (List.find?_eq_none.1 hfind r hr)
  | some r' =>
    have hr' : r' ∈ commandTable := List.mem_of_find?_eq_some hfind
    have hselects : r'.selects w = true := List.find?_some (p := fun r : Row => r.selects w) hfind
    obtain rfl : r = r' :=
      eq_of_cmdOp_pattern_eq hr hr' ((cmdOp_eq_of_selects hr h).symm.trans (cmdOp_eq_of_selects hr' hselects))
    rfl

/-- A byte in the field `c` leaves zero the half that `BUFWR` does not use, as its row asks (30_encoding.md R61). -/
theorem zero_append_and_ff00 (v : Byte) : (0#8 ++ v : Half) &&& 0xFF00 = 0 := by
  revert v
  decide

/-- `BUFWR` with its offset in the `x` field and its byte in `c[7:0]` (43_buffer_control.md R124). -/
theorem decodeCommand_bufWr (off : Half) (v : Byte) :
    decodeCommand (cmdWord 8 off 0 (0#8 ++ v)) = .ok (.bufWr off v) := by
  have hmem : commandTable[7] ∈ commandTable := List.getElem_mem _
  have hselects : commandTable[7].selects (cmdWord 8 off 0 (0#8 ++ v)) = true := by
    rw [Row.selects_iff _ 8 0xF 0 0 0 0xFFFF 0 0xFF00 (by decide) (by decide)]
    refine ⟨by simp, by simp, by simp, ?_⟩
    rw [cmdC_cmdWord]
    exact zero_append_and_ff00 v
  have hlow : (0#8 ++ v : Half).extractLsb' 0 8 = v := BitVec.extractLsb'_append_eq_right
  rw [decodeCommand_of_selects hmem hselects]
  change Except.ok (Instr.bufWr (cmdX _) ((cmdC _).extractLsb' 0 8)) = _
  rw [cmdX_cmdWord, cmdC_cmdWord, hlow]

end Sys2Proof

/-! PROOFS. Buffer control: the situations in which an operation is refused (43_buffer_control.md R128), and what `RDSTAT`, `BUFWR`
and `BEGIN` leave when they are accepted (R115, R120, R124). -/

namespace Sys2Proof.Machine

/-! ## The refused situations -/

theorem exec_begin_of_active {s : State} (hactive : s.active = true) : exec .begin s = .refused .alreadyActive :=
  if_pos hactive

/-- Inactive, the host's operations lack the activation they need, and no `TICK` is due. -/
theorem exec_refused_of_inactive {s : State} {i : Instr} (hinactive : s.active = false) (hi : i ≠ .begin) :
    ∃ r, exec i s = .refused r := by
  have hnot : ¬ s.active = true := by simp [hinactive]
  cases i with
  | begin => exact absurd rfl hi
  | stop | setPixel | swapReq | rdStat | copyFwd | bufRd | bufWr => exact ⟨.notActive, if_neg hnot⟩
  | tick =>
    have hdue : ¬ s.tickDue = true := by simp [State.tickDue, hinactive]
    exact ⟨.noTickEvent, if_neg hdue⟩

theorem exec_bufRd_of_outside {s : State} {off : Half} (hactive : s.active = true) (hoff : s.fbSize ≤ off.toNat) :
    exec (.bufRd off) s = .refused .offsetOutsideBuffer :=
  (if_pos hactive).trans (if_neg hoff.not_gt)

theorem exec_bufWr_of_outside {s : State} {off : Half} (v : Byte) (hactive : s.active = true)
    (hoff : s.fbSize ≤ off.toNat) : exec (.bufWr off v) s = .refused .offsetOutsideBuffer :=
  (if_pos hactive).trans (if_neg hoff.not_gt)

/-- Settles O16: each of the three situations fails a test its operation makes before it changes anything. -/
theorem refusedSituations : Obligations.RefusedSituations := by
  unfold Obligations.RefusedSituations
  refine ⟨fun s i => exec_refused_of_inactive, fun s => exec_begin_of_active, fun s off v hactive hoff => ?_⟩
  exact ⟨exec_bufRd_of_outside hactive hoff, exec_bufWr_of_outside v hactive hoff⟩

/-! ## `RDSTAT` -/

theorem State.statusByte_eq (s : State) : s.statusByte = if s.swapreq then 1 else 0 := by
  rw [State.statusByte]
  cases s.swapreq <;> rfl

theorem exec_rdStat_of_active {s : State} (hactive : s.active = true) :
    exec .rdStat s = .next (s.respond s.statusByte) :=
  if_pos hactive

/-- Settles O19: `RDSTAT` does nothing but drive the port, with the flag under seven zeros. -/
theorem rdStatReadsFlag : Obligations.RdStatReadsFlag := by
  unfold Obligations.RdStatReadsFlag
  refine ⟨by decide, fun s hactive => ?_⟩
  rw [exec_rdStat_of_active hactive, State.statusByte_eq, State.respond]

/-! ## `BUFWR` -/

/-- An operation of one access ends with it: an expiry falls only between two accesses (20_memory.md R44). -/
theorem hostStart_singleton (a : Access) (s : State) : hostStart [a] s = { a.after s 0 with preempt := [] } := rfl

/-- A store that keeps no bit of the byte read stores its own byte, whatever the host holds. -/
theorem Access.after_store_all (b : Buf) (off : Nat) (v h : Byte) (s : State) :
    (Access.store b off 0xFF v).after s h = s.memWrite b off v := by
  have hkept : h &&& ~~~0xFF#8 = 0#8 := BitVec.and_zero
  have hbyte : (h &&& ~~~0xFF#8) ||| v = v := by rw [hkept, BitVec.zero_or]
  exact congrArg (s.memWrite b off) hbyte

theorem exec_bufWr_of_inside {s : State} {off : Half} (v : Byte) (hactive : s.active = true)
    (hoff : off.toNat < s.fbSize) :
    exec (.bufWr off v) s = .next { s.undriveRsp.memWrite s.bk off.toNat v with preempt := [] } := by
  have hrun := (execBufWr_eq_next_iff off v s _).2 ⟨hactive, hoff, rfl⟩
  rwa [hostStart_singleton, Access.after_store_all] at hrun

/-- Settles O22: inside the buffer `BUFWR` is one memory write, read back by the law of a read after a write. -/
theorem bufWrWritesOneByte : Obligations.BufWrWritesOneByte := by
  unfold Obligations.BufWrWritesOneByte
  refine ⟨decodeCommand_bufWr, fun s off v href => ?refused, fun s off v hactive hoff hwf0 hwf1 => ?accepted⟩
  case refused =>
    cases hactive : s.active with
    | false => exact exec_refused_of_inactive hactive (by simp)
    | true =>
      have hoff : s.fbSize ≤ off.toNat := href.resolve_left (by simp [hactive])
      exact ⟨_, exec_bufWr_of_outside v hactive hoff⟩
  case accepted =>
    have hread := s.undriveRsp.memRead_memWrite s.bk off.toNat v (s.wf_fb hwf0 hwf1 s.bk)
    refine ⟨_, exec_bufWr_of_inside v hactive hoff, ?value, ?otherBytes, ?control, ?suspended, ?inputs⟩
    case value => exact (hread s.bk off.toNat).trans (if_pos ⟨rfl, rfl⟩)
    case otherBytes =>
      intro b' off' hother
      exact (hread b' off').trans (if_neg (by simpa using hother))
    case control => constructor <;> simp
    case suspended => exact s.undriveRsp.memWrite_suspended ..
    case inputs => exact s.undriveRsp.memWrite_inputs ..

/-! ## `BEGIN` -/

/-- What `BEGIN` leaves (43_buffer_control.md R115). -/
def State.begun (s : State) : State :=
  { (({ s.undriveRsp.clearBuffers with
        plane := 3, row := BitVec.ofNat 4 (s.nrows - 1), swapreq := false, back := .fb0 } : State).configurePins.enterTick.emit
      (.tmr (BitVec.ofNat 16 s.straps.firstInterval))) with active := true }

theorem exec_begin_of_inactive {s : State} (hinactive : s.active = false) : exec .begin s = .next s.begun :=
  (execBegin_eq_next_iff s s.begun).2 ⟨hinactive, rfl⟩

theorem State.begun_plane (s : State) : s.begun.plane = 3 := by
  simp [State.begun, State.configurePins]

theorem State.begun_swapreq (s : State) : s.begun.swapreq = false := by
  simp [State.begun, State.configurePins]

theorem State.begun_back (s : State) : s.begun.back = .fb0 := by
  simp [State.begun, State.configurePins]

/-- The last scan row's number fits the row register. -/
theorem State.begun_row_succ (s : State) : s.begun.row.toNat + 1 = s.nrows := by
  have hrow : s.begun.row = BitVec.ofNat 4 (s.nrows - 1) := by simp [State.begun, State.configurePins]
  rw [hrow, State.nrows]
  cases s.straps.nrows <;> rfl

theorem State.begun_pins (s : State) : s.begun.pins = ⟨true, false, false, 0, 0⟩ := by
  simp [State.begun, State.configurePins, Pins.apply]

theorem State.begun_timer (s : State) : s.begun.timer = ⟨BitVec.ofNat 16 s.straps.firstInterval, true, false⟩ := by
  simp [State.begun, State.configurePins, Timer.apply]

theorem toNat_firstInterval (p : Straps) : (BitVec.ofNat 16 p.firstInterval).toNat = p.firstInterval :=
  (BitVec.toNat_ofNat ..).trans (Nat.mod_eq_of_lt p.first_fits)

theorem State.begun_out (s : State) :
    s.begun.out = s.out ++ [.blank true, .lat false, .clk false, .addr 0, .data 0,
      .tmr (BitVec.ofNat 16 s.straps.firstInterval)] := by
  simp [State.begun, State.configurePins]

/-- The fill reaches the bytes that exist and no other: `FB[1]` only with `DBUF`, and in either buffer offsets below `FBSIZE`. -/
theorem State.memRead_clearBuffers {s : State} (h0 : s.fb0.wf = true) (h1 : s.fb1.wf = true) (b : Buf) (off : Nat) :
    s.clearBuffers.memRead b off = if s.hasByte b off then 0 else s.memRead b off := by
  cases b with
  | fb0 =>
    change s.clearBuffers.fb0.read off = _
    rw [State.clearBuffers_fb0, (Memory.clear_spec s.fbSize s.fb0 h0).2]
    simp [State.hasByte, State.memRead, State.fb]
  | fb1 =>
    change s.clearBuffers.fb1.read off = _
    rw [State.clearBuffers_fb1]
    cases hdbuf : s.straps.dbuf with
    | false => simp [State.hasByte, State.memRead, State.fb, hdbuf]
    | true =>
      rw [if_pos rfl, (Memory.clear_spec s.fbSize s.fb1 h1).2]
      simp [State.hasByte, State.memRead, State.fb, hdbuf]

/-- After its fill `BEGIN` moves no byte. -/
theorem State.begun_memRead (s : State) (b : Buf) (off : Nat) :
    s.begun.memRead b off = s.undriveRsp.clearBuffers.memRead b off := by
  cases b <;> simp [State.begun, State.configurePins, State.memRead, State.fb]

/-- Of the rest `BEGIN` keeps what is not its own (the straps, `ROT`, the script, any progress), and it drives no response
(43_buffer_control.md R115, 30_encoding.md R62). -/
theorem State.begun_frame (s : State) :
    s.begun.straps = s.straps ∧ s.begun.rot = s.rot ∧ s.begun.inputs = s.inputs ∧ s.begun.suspended = s.suspended ∧
      s.begun.preempt = s.preempt ∧ s.begun.rspValid = false := by
  simp [State.begun, State.configurePins]

/-- Settles O12, register by register; the bytes are those of the fill. -/
theorem beginInitialises : Obligations.BeginInitialises := by
  unfold Obligations.BeginInitialises
  refine ⟨by decide, fun s => exec_begin_of_active, fun s hinactive hwf0 hwf1 => ?_⟩
  have hread : ∀ b off, s.begun.memRead b off = if s.hasByte b off then 0 else s.memRead b off := fun b off =>
    (s.begun_memRead b off).trans (State.memRead_clearBuffers (s := s.undriveRsp) hwf0 hwf1 b off)
  refine ⟨s.begun, exec_begin_of_inactive hinactive, rfl, s.begun_plane, s.begun_row_succ, s.begun_swapreq, s.begun_back,
    s.begun_pins, ?period, ?run, ?pending, s.begun_out, ?exist, ?notExist, s.begun_frame⟩
  case period => rw [State.begun_timer, toNat_firstInterval]
  case run => rw [State.begun_timer]
  case pending => rw [State.begun_timer]
  case exist => exact fun b off hbyte => (hread b off).trans (if_pos hbyte)
  case notExist => exact fun b off hbyte => (hread b off).trans (if_neg (by simp [hbyte]))

end Sys2Proof.Machine

/-! PROOFS. The encoder against the decoder: every operation is read back from its word, a word is read by one row only, and a word
no row reads is refused (30_encoding.md R59 to R63). -/

namespace Sys2Proof

/-! ## From an operation to its word and back -/

/-- Every operand of `SETPIXEL` is legal: its row masks the op field alone (30_encoding.md R61, R63). -/
theorem decodeCommand_setPixel (x y c : Half) : decodeCommand (cmdWord 3 x y c) = .ok (.setPixel x y c) := by
  have hmem : commandTable[2] ∈ commandTable := List.getElem_mem _
  have hselects : commandTable[2].selects (cmdWord 3 x y c) = true := by
    rw [Row.selects_iff _ 3 0xF 0 0 0 0 0 0 (by decide) (by decide)]
    simp
  rw [decodeCommand_of_selects hmem hselects]
  change Except.ok (Instr.setPixel (cmdX _) (cmdY _) (cmdC _)) = _
  rw [cmdX_cmdWord, cmdY_cmdWord, cmdC_cmdWord]

/-- `BUFRD` with its offset in the `x` field (43_buffer_control.md R123). -/
theorem decodeCommand_bufRd (off : Half) : decodeCommand (cmdWord 7 off 0 0) = .ok (.bufRd off) := by
  have hmem : commandTable[6] ∈ commandTable := List.getElem_mem _
  have hselects : commandTable[6].selects (cmdWord 7 off 0 0) = true := by
    rw [Row.selects_iff _ 7 0xF 0 0 0 0xFFFF 0 0xFFFF (by decide) (by decide)]
    simp
  rw [decodeCommand_of_selects hmem hselects]
  change Except.ok (Instr.bufRd (cmdX _)) = _
  rw [cmdX_cmdWord]

/-- A byte widened to the field `c` is the byte under eight zeros. -/
theorem setWidth_eq_zero_append (v : Byte) : (v.setWidth 16 : Half) = 0#8 ++ v := by
  revert v
  decide

/-- Settles O1, operation by operation: those without operands have one word each, the others are read field by field. -/
theorem decodeInvertsEncode : Obligations.DecodeInvertsEncode := by
  unfold Obligations.DecodeInvertsEncode
  intro i
  cases i with
  | begin | stop | swapReq | rdStat | copyFwd | tick => decide
  | setPixel x y c => exact decodeCommand_setPixel x y c
  | bufRd off => exact decodeCommand_bufRd off
  | bufWr off v =>
    rw [encode, decode, setWidth_eq_zero_append]
    exact decodeCommand_bufWr off v

/-- Settles O4, word by word. -/
theorem sampleWordsDecode : Obligations.SampleWordsDecode := by
  unfold Obligations.SampleWordsDecode
  decide

/-! ## From a word to its operation and back -/

/-- A word that is read was selected by a row, which read it. -/
theorem exists_row_of_decodeCommand {w : CmdWord} {i : Instr} (h : decodeCommand w = .ok i) :
    ∃ r ∈ commandTable, r.selects w = true ∧ i = r.read w := by
  rw [decodeCommand] at h
  cases hfind : commandTable.find? (fun r => r.selects w) with
  | none => simp [hfind] at h
  | some r =>
    have hread : r.read w = i := by simpa [hfind] using h
    exact ⟨r, List.mem_of_find?_eq_some hfind, List.find?_some (p := fun r : Row => r.selects w) hfind, hread.symm⟩

/-- A row that masks a whole word selects only its own pattern. -/
theorem Row.eq_pattern_of_selects {r : Row} {w : CmdWord} (hmask : r.mask = 0xFFFFFFFFFFFFF) (h : r.selects w = true) :
    w = r.pattern := by
  have hmasked : w &&& r.mask = r.pattern := of_decide_eq_true h
  rw [← hmasked, hmask]
  exact BitVec.and_allOnes.symm

/-- The low byte of a field whose high byte is masked away gives the field back (30_encoding.md R61). -/
theorem setWidth_lowByte {c : Half} (h : c &&& 0xFF00 = 0) : ((c.extractLsb' 0 8).setWidth 16 : Half) = c := by
  have hmask : ∀ i < 16, 8 ≤ i → (0xFF00#16).getLsbD i = true := by decide
  apply BitVec.eq_of_getLsbD_eq
  intro i hi
  by_cases hlow : i < 8
  · simp [hi, hlow]
  · have hclear : c.getLsbD i = false := by
      have hzero : (c &&& 0xFF00#16).getLsbD i = (0#16).getLsbD i := congrArg (fun v => v.getLsbD i) h
      simpa only [BitVec.getLsbD_and, hmask i hi (by omega), Bool.and_true, BitVec.getLsbD_zero] using hzero
    simpa [hlow] using hclear.symm

/-- A word is put together from its fields. -/
theorem cmdWord_eq_of_fields {w : CmdWord} {op : BitVec 4} {x y c : Half} (hop : cmdOp w = op) (hx : cmdX w = x)
    (hy : cmdY w = y) (hc : cmdC w = c) : cmdWord op x y c = w := by
  rw [← hop, ← hx, ← hy, ← hc, cmdWord_fields]

/-- The operation a row reads from a word it selects is encoded by that word: what the row does not read is zero. -/
theorem encode_read_of_selects {r : Row} {w : CmdWord} (hr : r ∈ commandTable) (h : r.selects w = true) :
    encode (r.read w) = .command w := by
  have hop : cmdOp w = cmdOp r.pattern := cmdOp_eq_of_selects hr h
  simp only [commandTable, List.mem_cons, List.not_mem_nil, or_false] at hr
  obtain rfl | rfl | rfl | rfl | rfl | rfl | rfl | rfl := hr
  case inr.inr.inl => exact congrArg Presented.command (cmdWord_eq_of_fields hop rfl rfl rfl)
  case inr.inr.inr.inr.inr.inr.inl =>
    obtain ⟨-, -, hy, hc⟩ := (Row.selects_iff _ 7 0xF 0 0 0 0xFFFF 0 0xFFFF (by decide) (by decide) w).1 h
    exact congrArg Presented.command
      (cmdWord_eq_of_fields hop rfl (BitVec.and_allOnes.symm.trans hy) (BitVec.and_allOnes.symm.trans hc))
  case inr.inr.inr.inr.inr.inr.inr =>
    obtain ⟨-, -, hy, hc⟩ := (Row.selects_iff _ 8 0xF 0 0 0 0xFFFF 0 0xFF00 (by decide) (by decide) w).1 h
    exact congrArg Presented.command
      (cmdWord_eq_of_fields hop rfl (BitVec.and_allOnes.symm.trans hy) (setWidth_lowByte hc).symm)
  all_goals
    rw [Row.eq_pattern_of_selects rfl h]
    decide

/-- A word that is read is the word of its operation (30_encoding.md R61). -/
theorem encode_of_decodeCommand {w : CmdWord} {i : Instr} (h : decodeCommand w = .ok i) : encode i = .command w := by
  obtain ⟨r, hr, hselects, rfl⟩ := exists_row_of_decodeCommand h
  exact encode_read_of_selects hr hselects

/-- No command word selects `TICK` (30_encoding.md R59). -/
theorem ne_tick_of_decodeCommand {w : CmdWord} {i : Instr} (h : decodeCommand w = .ok i) : i ≠ .tick := by
  rintro rfl
  exact absurd (encode_of_decodeCommand h) (by simp [encode])

/-- No word selects two rows, since the rows have different op codes (30_encoding.md R60, R61). -/
theorem length_selecting_le_one (w : CmdWord) : (commandTable.filter fun r => r.selects w).length ≤ 1 := by
  have hcodes : (commandTable.map fun r => cmdOp r.pattern).Nodup := by decide
  have hnodup : (commandTable.filter fun r => r.selects w).Nodup := (List.Nodup.of_map _ hcodes).filter _
  cases hfilter : commandTable.filter fun r => r.selects w with
  | nil => exact Nat.zero_le 1
  | cons r rest =>
    cases rest with
    | nil => exact Nat.le_refl 1
    | cons r' rest =>
      obtain ⟨hr, hsel⟩ := List.mem_filter.1 (hfilter ▸ List.mem_cons_self : r ∈ commandTable.filter _)
      obtain ⟨hr', hsel'⟩ := List.mem_filter.1
        (hfilter ▸ List.mem_cons_of_mem _ List.mem_cons_self : r' ∈ commandTable.filter _)
      obtain rfl := eq_of_cmdOp_pattern_eq hr hr' ((cmdOp_eq_of_selects hr hsel).symm.trans (cmdOp_eq_of_selects hr' hsel'))
      simp [hfilter] at hnodup

/-- Settles O2: a row leaves no bit of a word it selects unread, and no word selects two rows. -/
theorem encodeInvertsDecodeCommand : Obligations.EncodeInvertsDecodeCommand := by
  unfold Obligations.EncodeInvertsDecodeCommand
  exact ⟨fun _ _ => encode_of_decodeCommand, length_selecting_le_one⟩

/-! ## Reserved words -/

/-- A word no operation is encoded by is rejected (30_encoding.md R63). -/
theorem decodeCommand_of_no_encode {w : CmdWord} (h : ∀ i, encode i ≠ .command w) :
    decodeCommand w = .error (rejectCommand w) := by
  cases hw : decodeCommand w with
  | ok i => exact absurd (encode_of_decodeCommand hw) (h i)
  | error e =>
    rw [decodeCommand] at hw
    split at hw
    · cases hw
    · exact hw.symm

/-- Every operation's op code is one of 1 to 8 (30_encoding.md R60). -/
theorem encode_ne_of_reservedOp {w : CmdWord} (h : cmdOp w = 0 ∨ 9 ≤ (cmdOp w).toNat) (i : Instr) :
    encode i ≠ .command w := by
  have hop : ∀ (op : BitVec 4) (x y c : Half), 0 < op.toNat → op.toNat < 9 → Presented.command (cmdWord op x y c) ≠ .command w := by
    rintro op x y c hpos hlt hw
    obtain rfl := Presented.command.inj hw
    rw [cmdOp_cmdWord] at h
    obtain rfl | hhigh := h
    · exact absurd hpos (by decide)
    · omega
  cases i with
  | tick => simp [encode]
  | begin | stop | setPixel | swapReq | rdStat | copyFwd | bufRd | bufWr => exact hop _ _ _ _ (by decide) (by decide)

end Sys2Proof

namespace Sys2Proof.Machine

/-- A rejected word on the command port is refused by name. -/
theorem step_of_rejected {s : State} {w : CmdWord} {cuts : List Nat} {rest : List Input} {e : Reject}
    (hdue : s.tickDue = false) (hfree : s.suspended = none) (hin : s.inputs = .command w cuts :: rest)
    (hw : decodeCommand w = .error e) : step s = .refused (.reserved e) := by
  simp [step, State.turn, State.accept, hdue, hfree, hin, hw]

/-- Settles O5: no operation is encoded by a reserved word, and the op field decides the name. -/
theorem reservedWordsRefused : Obligations.ReservedWordsRefused := by
  unfold Obligations.ReservedWordsRefused
  refine ⟨fun s w cuts rest hdue hfree hin => ⟨fun hop => ?reservedOp, fun hop hnone => ?unusedField⟩, decodeCommand_setPixel⟩
  case reservedOp =>
    have hreject : rejectCommand w = .reservedOpcode := if_pos hop
    exact step_of_rejected hdue hfree hin (hreject ▸ decodeCommand_of_no_encode (encode_ne_of_reservedOp hop))
  case unusedField =>
    have hreject : rejectCommand w = .unusedFieldNotZero := if_neg hop
    exact step_of_rejected hdue hfree hin (hreject ▸ decodeCommand_of_no_encode hnone)

end Sys2Proof.Machine

/-! PROOFS. The written form: digits, numbers and words are read back as they were written (30_encoding.md R65). -/

namespace Sys2Proof.Machine

/-! ## Digits and numbers -/

theorem digitValue_digitChar {d : Nat} (hd : d < 16) : digitValue (Nat.digitChar d) = some d := by
  revert d
  decide

/-- A digit the base admits is taken in front of the digits after it. -/
theorem readDigits_digitChar {base d : Nat} (hd : d < base) (hbase : base ≤ 16) (cs : List Char) (acc : Nat) :
    readDigits base (Nat.digitChar d :: cs) acc = readDigits base cs (acc * base + d) := by
  simp [readDigits, digitValue_digitChar (hd.trans_le hbase), hd]

/-- Only `0x` starts a hexadecimal number (30_encoding.md R65). -/
theorem readNat_decimal (d e : Char) (ds : List Char) (he : e ≠ 'x') :
    readNat (d :: e :: ds) = readDigits 10 (d :: e :: ds) 0 := by
  unfold readNat
  split
  · simp_all
  · simp_all
  · simp_all

theorem readNat_hexChars (v : Half) : readNat (hexChars v) = some v.toNat := by
  have hv := v.isLt
  change readDigits 16 [_, _, _, _] 0 = _
  rw [readDigits_digitChar (Nat.mod_lt _ (by decide)) (Nat.le_refl _), readDigits_digitChar (Nat.mod_lt _ (by decide)) (Nat.le_refl _),
    readDigits_digitChar (Nat.mod_lt _ (by decide)) (Nat.le_refl _), readDigits_digitChar (Nat.mod_lt _ (by decide)) (Nat.le_refl _)]
  simp only [readDigits, Option.some.injEq]
  omega

theorem digitChar_ne_x {d : Nat} (hd : d < 10) : Nat.digitChar d ≠ 'x' := by
  revert d
  decide

theorem readNat_decimalChars {n : Nat} (hn : n < 100000) : readNat (decimalChars n) = some n := by
  rw [decimalChars, readNat_decimal _ _ _ (digitChar_ne_x (Nat.mod_lt _ (by decide)))]
  rw [readDigits_digitChar (Nat.mod_lt _ (by decide)) (by decide), readDigits_digitChar (Nat.mod_lt _ (by decide)) (by decide),
    readDigits_digitChar (Nat.mod_lt _ (by decide)) (by decide), readDigits_digitChar (Nat.mod_lt _ (by decide)) (by decide),
    readDigits_digitChar (Nat.mod_lt _ (by decide)) (by decide)]
  simp only [readDigits, Option.some.injEq]
  omega

theorem digitChar_ne_minus {d : Nat} (hd : d < 10) : Nat.digitChar d ≠ '-' := by
  revert d
  decide

theorem readInt_decimalChars {n : Nat} (hn : n < 100000) : readInt (decimalChars n) = some (n : Int) := by
  have hsign : Nat.digitChar (n / 10000 % 10) ≠ '-' := digitChar_ne_minus (Nat.mod_lt _ (by decide))
  unfold readInt
  split
  · rename_i heq
    simp [decimalChars, hsign] at heq
  · rw [readNat_decimalChars hn]
    rfl

/-! ## Operands -/

theorem readField_hexChars {w : Nat} (v : Half) (hv : v.toNat < 2 ^ w) :
    readField w (hexChars v) = some (BitVec.ofNat w v.toNat) := by
  rw [readField, readNat_hexChars]
  exact if_pos hv

theorem readField_half (v : Half) : readField 16 (hexChars v) = some v := by
  rw [readField_hexChars v v.isLt, BitVec.ofNat_toNat, BitVec.setWidth_eq]

theorem readField_byte (v : Byte) : readField 8 (hexChars (v.setWidth 16)) = some v := by
  have hv : (v.setWidth 16 : Half).toNat = v.toNat := by simp; omega
  rw [readField_hexChars _ (hv ▸ v.isLt), hv, BitVec.ofNat_toNat, BitVec.setWidth_eq]

theorem readInt_coordChars (v : Half) : readInt (coordChars v) = some v.toInt := by
  have hlow := v.le_toInt
  have hhigh := v.toInt_lt
  have hsmall : v.toInt.natAbs < 100000 := by omega
  rw [coordChars]
  split
  · rw [readInt, readNat_decimalChars hsmall]
    change some (-(v.toInt.natAbs : Int)) = some v.toInt
    congr 1
    omega
  · rw [readInt_decimalChars hsmall]
    congr 1
    omega

theorem readCoord_coordChars (v : Half) : readCoord (coordChars v) = some v := by
  have hlow := v.le_toInt
  have hhigh := v.toInt_lt
  rw [readCoord, readInt_coordChars]
  simp only
  rw [if_pos (by omega), BitVec.ofInt_toInt]

/-! ## Words of a line -/

/-- A character of a word: no blank, no comma, no start of a comment. -/
def isWordChar (ch : Char) : Bool := !(ch = ';' || ch = ' ' || ch = '\t' || ch = ',')

/-- The characters of a word are gathered until something else comes. -/
theorem splitWords_append {word : List Char} (hword : ∀ ch ∈ word, isWordChar ch = true) (rest cur : List Char) :
    splitWords (word ++ rest) cur = splitWords rest (word.reverse ++ cur) := by
  induction word generalizing cur with
  | nil => rfl
  | cons ch word ih =>
    have hch : isWordChar ch = true := hword ch List.mem_cons_self
    simp only [isWordChar, Bool.not_eq_true', Bool.or_eq_false_iff, decide_eq_false_iff_not] at hch
    rw [List.cons_append, splitWords]
    simp only [hch, or_self, if_false]
    rw [ih (fun c hc => hword c (List.mem_cons_of_mem _ hc))]
    simp

theorem splitWords_word {word : List Char} (hword : ∀ ch ∈ word, isWordChar ch = true) (hne : word ≠ []) :
    splitWords word [] = [word] := by
  have h := splitWords_append hword [] []
  simp only [List.append_nil] at h
  rw [h, splitWords]
  simp [hne]

theorem splitWords_word_blank {word : List Char} (hword : ∀ ch ∈ word, isWordChar ch = true) (hne : word ≠ []) (rest : List Char) :
    splitWords (word ++ ' ' :: rest) [] = word :: splitWords rest [] := by
  rw [splitWords_append hword, splitWords]
  simp [hne]

/-- A comma and the blank the writer puts after it (30_encoding.md R65). -/
theorem splitWords_word_comma {word : List Char} (hword : ∀ ch ∈ word, isWordChar ch = true) (hne : word ≠ []) (rest : List Char) :
    splitWords (word ++ ',' :: ' ' :: rest) [] = word :: [','] :: splitWords rest [] := by
  rw [splitWords_append hword, splitWords, splitWords]
  simp [hne]

theorem isWordChar_digitChar {d : Nat} (hd : d < 16) : isWordChar (Nat.digitChar d) = true := by
  revert d
  decide

theorem isWordChar_hexChars (v : Half) : ∀ ch ∈ hexChars v, isWordChar ch = true := by
  have hdigit : ∀ n, isWordChar (Nat.digitChar (n % 16)) = true := fun n => isWordChar_digitChar (Nat.mod_lt _ (by decide))
  simp only [hexChars, List.forall_mem_cons]
  exact ⟨by decide, by decide, hdigit _, hdigit _, hdigit _, hdigit _, by simp⟩

theorem isWordChar_decimalChars (n : Nat) : ∀ ch ∈ decimalChars n, isWordChar ch = true := by
  have hdigit : ∀ n, isWordChar (Nat.digitChar (n % 10)) = true := fun n =>
    isWordChar_digitChar ((Nat.mod_lt n (by decide : 0 < 10)).trans (by decide))
  simp only [decimalChars, List.forall_mem_cons]
  exact ⟨hdigit _, hdigit _, hdigit _, hdigit _, hdigit _, by simp⟩

theorem isWordChar_coordChars (v : Half) : ∀ ch ∈ coordChars v, isWordChar ch = true := by
  rw [coordChars]
  split
  · rw [List.forall_mem_cons]
    exact ⟨by decide, isWordChar_decimalChars _⟩
  · exact isWordChar_decimalChars _

theorem coordChars_ne_nil (v : Half) : coordChars v ≠ [] := by
  rw [coordChars]
  split <;> simp [decimalChars]

theorem hexChars_ne_nil (v : Half) : hexChars v ≠ [] := List.cons_ne_nil _ _

/-! ## Lines -/

theorem readWords_setPixel (x y c : List Char) :
    readWords [['S', 'E', 'T', 'P', 'I', 'X', 'E', 'L'], x, [','], y, [','], c] =
      (do return .op (.setPixel (← readCoord x) (← readCoord y) (← readField 16 c)) none) := rfl

theorem readWords_bufRd (off : List Char) :
    readWords [['B', 'U', 'F', 'R', 'D'], off] = (do return .op (.bufRd (← readField 16 off)) (← readResult [])) := rfl

theorem readWords_bufWr (off v : List Char) :
    readWords [['B', 'U', 'F', 'W', 'R'], off, [','], v] =
      (do return .op (.bufWr (← readField 16 off) (← readField 8 v)) none) := rfl

theorem splitWords_setPixel (x y c : Half) :
    splitWords (writeInstr (.setPixel x y c)) [] =
      [['S', 'E', 'T', 'P', 'I', 'X', 'E', 'L'], coordChars x, [','], coordChars y, [','], hexChars c] := by
  have hline : writeInstr (.setPixel x y c) =
      ['S', 'E', 'T', 'P', 'I', 'X', 'E', 'L'] ++ ' ' :: (coordChars x ++ ',' :: ' ' :: (coordChars y ++ ',' :: ' ' :: hexChars c)) := by
    simp [writeInstr]
  rw [hline, splitWords_word_blank (word := ['S', 'E', 'T', 'P', 'I', 'X', 'E', 'L']) (by simp [isWordChar]) (by simp),
    splitWords_word_comma (isWordChar_coordChars x) (coordChars_ne_nil x),
    splitWords_word_comma (isWordChar_coordChars y) (coordChars_ne_nil y),
    splitWords_word (isWordChar_hexChars c) (hexChars_ne_nil c)]

theorem splitWords_bufRd (off : Half) : splitWords (writeInstr (.bufRd off)) [] = [['B', 'U', 'F', 'R', 'D'], hexChars off] := by
  have hline : writeInstr (.bufRd off) = ['B', 'U', 'F', 'R', 'D'] ++ ' ' :: hexChars off := rfl
  rw [hline, splitWords_word_blank (word := ['B', 'U', 'F', 'R', 'D']) (by simp [isWordChar]) (by simp), splitWords_word (isWordChar_hexChars off) (hexChars_ne_nil off)]

theorem splitWords_bufWr (off : Half) (v : Byte) :
    splitWords (writeInstr (.bufWr off v)) [] =
      [['B', 'U', 'F', 'W', 'R'], hexChars off, [','], hexChars (v.setWidth 16)] := by
  have hline : writeInstr (.bufWr off v) =
      ['B', 'U', 'F', 'W', 'R'] ++ ' ' :: (hexChars off ++ ',' :: ' ' :: hexChars (v.setWidth 16)) := rfl
  rw [hline, splitWords_word_blank (word := ['B', 'U', 'F', 'W', 'R']) (by simp [isWordChar]) (by simp), splitWords_word_comma (isWordChar_hexChars off) (hexChars_ne_nil off),
    splitWords_word (isWordChar_hexChars _) (hexChars_ne_nil _)]

/-- Settles O3: the line falls into the mnemonic and its operands, and each operand is read back. -/
theorem writtenFormReadsBack : Obligations.WrittenFormReadsBack := by
  unfold Obligations.WrittenFormReadsBack
  intro i
  rw [readLine]
  cases i with
  | begin | stop | swapReq | rdStat | copyFwd | tick => rfl
  | setPixel x y c =>
    rw [splitWords_setPixel, readWords_setPixel, readCoord_coordChars, readCoord_coordChars, readField_half]
    rfl
  | bufRd off =>
    rw [splitWords_bufRd, readWords_bufRd, readField_half]
    rfl
  | bufWr off v =>
    rw [splitWords_bufWr, readWords_bufWr, readField_half, readField_byte]
    rfl

end Sys2Proof.Machine

/-! PROOFS. The address decoder and the rotations as one-to-one maps: a pixel bit and the byte and bit that store it
(40_address_decoder.md R74, R77), a coordinate and the pixel it names (41_pixel_writer.md R83). -/

namespace Sys2Proof.Machine

/-! ## A pixel bit's place relative to its pixel's base -/

/-- Which of a pixel's three bytes holds a bit of it, and where in that byte (40_address_decoder.md R72, R73). -/
def planePlace (half : HalfPanel) (p : Nat) (ch : Channel) : Nat × Nat :=
  if p = 0 then ((planeZeroPlace half ch).1 / 32, (planeZeroPlace half ch).2) else (p - 1, 2 + 3 * half.num + ch.num)

/-- The pixel bit that a bit of a pixel's three bytes holds. -/
def pixelBitAt (step bit : Nat) : HalfPanel × Nat × Channel :=
  match bit with
  | 0 => if step = 2 then (.top, 0, .red) else if step = 1 then (.top, 0, .blue) else (.bottom, 0, .green)
  | 1 => if step = 2 then (.top, 0, .green) else if step = 1 then (.bottom, 0, .red) else (.bottom, 0, .blue)
  | 2 => (.top, step + 1, .red)
  | 3 => (.top, step + 1, .green)
  | 4 => (.top, step + 1, .blue)
  | 5 => (.bottom, step + 1, .red)
  | 6 => (.bottom, step + 1, .green)
  | _ => (.bottom, step + 1, .blue)

theorem pixelBitAt_planePlace (half : HalfPanel) {p : Nat} (hp : p < 4) (ch : Channel) :
    pixelBitAt (planePlace half p ch).1 (planePlace half p ch).2 = (half, p, ch) := by
  revert p
  cases half <;> cases ch <;> decide

/-- Every bit of a pixel's three bytes holds a pixel bit, of that pixel or of its partner in the other half. -/
theorem planePlace_pixelBitAt {step bit : Nat} (hstep : step < 3) (hbit : bit < 8) :
    (pixelBitAt step bit).2.1 < 4 ∧
      planePlace (pixelBitAt step bit).1 (pixelBitAt step bit).2.1 (pixelBitAt step bit).2.2 = (step, bit) := by
  revert bit
  revert step
  decide

theorem planePlace_lt (half : HalfPanel) {p : Nat} (hp : p < 4) (ch : Channel) :
    (planePlace half p ch).1 < 3 ∧ (planePlace half p ch).2 < 8 := by
  revert p
  cases half <;> cases ch <;> decide

theorem fbAddr_eq (half : HalfPanel) (row col p : Nat) (ch : Channel) :
    fbAddr half row col p ch = (fbBase row col + 32 * (planePlace half p ch).1, (planePlace half p ch).2) := by
  by_cases hp : p = 0
  · subst hp
    rw [fbAddr_plane_zero, fbBase_eq]
    cases half <;> cases ch <;> rfl
  · rw [fbAddr_of_plane_pos half row col ch (Nat.one_le_iff_ne_zero.2 hp), planePlace, if_neg hp, fbBase_eq, Nat.mul_comm (p - 1)]

/-! ## The decoder as a bijection -/

theorem fbSize_eq (n : RowCount) : n.fbSize = 96 * n.toNat := rfl

/-- A scan row has 96 bytes, three planes' bytes of 32 columns, so base and step determine each other's parts. -/
theorem fbBase_add_inj {row row' col col' step step' : Nat} (hcol : col < 32) (hcol' : col' < 32) (hstep : step < 3)
    (hstep' : step' < 3) (h : fbBase row col + 32 * step = fbBase row' col' + 32 * step') :
    row = row' ∧ col = col' ∧ step = step' := by
  simp only [fbBase_eq] at h
  omega

theorem fbBase_add_lt {n row col step : Nat} (hrow : row < n) (hcol : col < 32) (hstep : step < 3) :
    fbBase row col + 32 * step < 96 * n := by
  rw [fbBase_eq]
  omega

/-- Two pixel bits in one place are the same pixel bit (40_address_decoder.md R74). -/
theorem fbAddr_inj {half half' : HalfPanel} {row row' col col' p p' : Nat} {ch ch' : Channel} (hcol : col < 32)
    (hcol' : col' < 32) (hp : p < 4) (hp' : p' < 4) (h : fbAddr half row col p ch = fbAddr half' row' col' p' ch') :
    half = half' ∧ row = row' ∧ col = col' ∧ p = p' ∧ ch = ch' := by
  rw [fbAddr_eq, fbAddr_eq, Prod.mk.injEq] at h
  obtain ⟨hoff, hbit⟩ := h
  obtain ⟨rfl, rfl, hstep⟩ := fbBase_add_inj hcol hcol' (planePlace_lt half hp ch).1 (planePlace_lt half' hp' ch').1 hoff
  have hsame := pixelBitAt_planePlace half hp ch
  rw [hstep, hbit, pixelBitAt_planePlace half' hp' ch', Prod.mk.injEq, Prod.mk.injEq] at hsame
  obtain ⟨rfl, rfl, rfl⟩ := hsame
  exact ⟨rfl, rfl, rfl, rfl, rfl⟩

/-- Every bit of a buffer is the place of a pixel bit (40_address_decoder.md R74). -/
theorem exists_fbAddr_eq (n : RowCount) {off bit : Nat} (hoff : off < n.fbSize) (hbit : bit < 8) :
    ∃ half row col p ch, row < n.toNat ∧ col < 32 ∧ p < 4 ∧ fbAddr half row col p ch = (off, bit) := by
  rw [fbSize_eq] at hoff
  have hstep : off % 96 / 32 < 3 := by omega
  obtain ⟨hplane, hplace⟩ := planePlace_pixelBitAt hstep hbit
  refine ⟨(pixelBitAt (off % 96 / 32) bit).1, off / 96, off % 32, (pixelBitAt (off % 96 / 32) bit).2.1,
    (pixelBitAt (off % 96 / 32) bit).2.2, by omega, by omega, hplane, ?_⟩
  rw [fbAddr_eq, hplace, fbBase_eq, Prod.mk.injEq]
  exact ⟨by omega, rfl⟩

theorem fbAddr_lt (n : RowCount) (half : HalfPanel) {row col p : Nat} (ch : Channel) (hrow : row < n.toNat) (hcol : col < 32)
    (hp : p < 4) : (fbAddr half row col p ch).1 < n.fbSize ∧ (fbAddr half row col p ch).2 < 8 := by
  obtain ⟨hstep, hbit⟩ := planePlace_lt half hp ch
  rw [fbAddr_eq]
  exact ⟨fbBase_add_lt hrow hcol hstep, hbit⟩

/-- Settles O27: a base and one of three steps stay inside the rows of 96 bytes. -/
theorem decoderStaysInBuffer : Obligations.DecoderStaysInBuffer := by
  unfold Obligations.DecoderStaysInBuffer
  exact fun n half row col p ch hrow hcol hp => fbAddr_lt n half ch hrow hcol hp

/-- Settles O28: the decoder reaches every bit, and no bit twice. -/
theorem decoderBijective : Obligations.DecoderBijective := by
  unfold Obligations.DecoderBijective
  intro n off bit hoff hbit
  obtain ⟨half, row, col, p, ch, hrow, hcol, hp, haddr⟩ := exists_fbAddr_eq n hoff hbit
  refine ⟨(half, row, col, p, ch), ⟨hrow, hcol, hp, haddr⟩, ?_⟩
  rintro ⟨half', row', col', p', ch'⟩ ⟨-, hcol', hp', haddr'⟩
  obtain ⟨rfl, rfl, rfl, rfl, rfl⟩ := fbAddr_inj hcol' hcol hp' hp (haddr'.trans haddr.symm)
  rfl

/-! ## The scan side of the decoder -/

/-- A colour line carries its own half's and channel's bit of the plane (40_address_decoder.md R77). -/
theorem getLsbD_lineAt (m : Memory) (plane row col : Nat) (half : HalfPanel) (ch : Channel) :
    (lineAt m plane row col).getLsbD (3 * half.num + ch.num) =
      (m.read (fbAddr half row col plane ch).1).getLsbD (fbAddr half row col plane ch).2 := by
  have hline : 3 * half.num + ch.num < 6 := by cases half <;> cases ch <;> decide
  by_cases hp : plane = 0
  · subst hp
    rw [getLsbD_lineAt_plane_zero m row col hline, fbAddr_plane_zero]
    cases half <;> cases ch <;> rfl
  · have hp : 1 ≤ plane := Nat.one_le_iff_ne_zero.2 hp
    rw [lineAt_of_plane_pos m row col hp, fbAddr_of_plane_pos half row col ch hp, BitVec.getLsbD_extractLsb',
      Nat.add_right_comm (row * 96), ← Nat.add_assoc]
    simp [hline]

/-- Settles O29. -/
theorem scanAgreesWithDecoder : Obligations.ScanAgreesWithDecoder := by
  unfold Obligations.ScanAgreesWithDecoder
  exact fun m plane row col half ch _ => getLsbD_lineAt m plane row col half ch

/-! ## Physical rows -/

/-- Half and scan row of a physical row (40_address_decoder.md R70). -/
theorem scanRowOf_lt {n : RowCount} {py : Nat} (hpy : py < 2 * n.toNat) : scanRowOf n py < n.toNat := by
  rw [scanRowOf]
  split <;> omega

/-- Half and scan row together tell the physical row. -/
theorem physicalRow_inj {n : RowCount} {py py' : Nat} (hhalf : halfOf n py = halfOf n py')
    (hrow : scanRowOf n py = scanRowOf n py') : py = py' := by
  simp only [halfOf, scanRowOf] at hhalf hrow
  split at hhalf <;> split at hhalf <;> simp_all
  omega

theorem exists_physicalRow (n : RowCount) (half : HalfPanel) {row : Nat} (hrow : row < n.toNat) :
    ∃ py, py < 2 * n.toNat ∧ halfOf n py = half ∧ scanRowOf n py = row := by
  cases half with
  | top => exact ⟨row, by omega, if_pos hrow, if_pos hrow⟩
  | bottom =>
    have hnot : ¬ row + n.toNat < n.toNat := by omega
    exact ⟨row + n.toNat, by omega, if_neg hnot, (if_neg hnot).trans (Nat.add_sub_cancel ..)⟩

/-! ## Rotation -/

/-- Rotated coordinates lie on the panel (41_pixel_writer.md R83). -/
theorem rotate_lt (n : RowCount) (rot : BitVec 2) {x y : Nat} (hx : x < (logicalExtent n rot).1)
    (hy : y < (logicalExtent n rot).2) : (rotate n rot x y).1 < 32 ∧ (rotate n rot x y).2 < 2 * n.toNat := by
  obtain (rfl | rfl) | rfl | rfl := rot_upright_or_turned rot
  all_goals
    simp [logicalExtent, rotate, Config.width, panelHeight] at hx hy ⊢
    omega

/-- The coordinates that name a physical pixel (41_pixel_writer.md R83, read backwards). -/
def unrotate (n : RowCount) (rot : BitVec 2) (px py : Nat) : Nat × Nat :=
  if rot = 0 then (px, py)
  else if rot = 1 then (py, 31 - px)
  else if rot = 2 then (31 - px, 2 * n.toNat - 1 - py)
  else (2 * n.toNat - 1 - py, px)

theorem unrotate_rotate (n : RowCount) (rot : BitVec 2) {x y : Nat} (hx : x < (logicalExtent n rot).1)
    (hy : y < (logicalExtent n rot).2) : unrotate n rot (rotate n rot x y).1 (rotate n rot x y).2 = (x, y) := by
  obtain (rfl | rfl) | rfl | rfl := rot_upright_or_turned rot
  all_goals
    simp [logicalExtent, rotate, unrotate, Config.width, panelHeight] at hx hy ⊢ <;> omega

theorem rotate_unrotate (n : RowCount) (rot : BitVec 2) {px py : Nat} (hpx : px < 32) (hpy : py < 2 * n.toNat) :
    (unrotate n rot px py).1 < (logicalExtent n rot).1 ∧ (unrotate n rot px py).2 < (logicalExtent n rot).2 ∧
      rotate n rot (unrotate n rot px py).1 (unrotate n rot px py).2 = (px, py) := by
  obtain (rfl | rfl) | rfl | rfl := rot_upright_or_turned rot
  all_goals
    simp [logicalExtent, rotate, unrotate, Config.width, panelHeight]
    omega

/-- Settles O33: the rotation and its inverse undo each other inside the extent. -/
theorem rotationOneToOne : Obligations.RotationOneToOne := by
  unfold Obligations.RotationOneToOne
  refine fun n rot => ⟨fun x y => rotate_lt n rot, fun px py hpx hpy => ?_⟩
  refine ⟨unrotate n rot px py, rotate_unrotate n rot hpx hpy, ?_⟩
  rintro ⟨x, y⟩ ⟨hx, hy, hrot⟩
  have hback := unrotate_rotate n rot hx hy
  rw [hrot] at hback
  exact hback.symm

end Sys2Proof.Machine

/-! PROOFS. The byte accesses of the host's operations, what a run of them can do, and the moves in which they are made
(20_memory.md R37, R40, R44; 30_encoding.md R62). -/

namespace Sys2Proof.Machine

/-! ## Where the accesses of an operation go -/

/-- The access reads a byte of a buffer, or replaces bits of it. -/
def Access.PatchesAt (b : Buf) (off : Nat) (a : Access) : Prop :=
  a = .load b off ∨ ∃ mask set, a = .store b off mask set

theorem patchesAt_of_mem_rmw {b : Buf} {o : Nat} {mask set : Byte} {a : Access} (h : a ∈ rmw b o mask set) :
    a.PatchesAt b o := by
  simp only [rmw, List.mem_cons, List.not_mem_nil, or_false] at h
  obtain rfl | rfl := h
  · exact .inl rfl
  · exact .inr ⟨_, _, rfl⟩

theorem patchesAt_of_mem_rmw2 {b : Buf} {o : Nat} {mask set : Byte} {a : Access} (h : a ∈ rmw2 b o mask set) :
    a.PatchesAt b o := by
  simp only [rmw2, List.mem_cons, List.not_mem_nil, or_false] at h
  obtain rfl | rfl | rfl := h
  · exact .inl rfl
  · exact .inr ⟨_, _, rfl⟩
  · exact .inr ⟨_, _, rfl⟩

/-- The update of one plane, 1 to 3, that both halves make (41_pixel_writer.md R86). -/
theorem patchesAt_of_mem_planes {b : Buf} {base : Nat} {mask : Byte} {set : Nat → Byte} {a : Access}
    (h : a ∈ [1, 2, 3].flatMap fun p => rmw b (base + (p - 1) * 32) mask (set p)) :
    ∃ step, step < 3 ∧ a.PatchesAt b (base + 32 * step) := by
  obtain ⟨p, hp, ha⟩ := List.mem_flatMap.1 h
  simp only [List.mem_cons, List.not_mem_nil, or_false] at hp
  refine ⟨p - 1, by omega, ?_⟩
  rw [Nat.mul_comm]
  exact patchesAt_of_mem_rmw ha

/-- A pixel's accesses touch the three bytes of its base (41_pixel_writer.md R79, R86). -/
theorem patchesAt_of_mem_pixelAccesses {n : RowCount} {b : Buf} {px py : Nat} {v : Rgb4} {a : Access}
    (h : a ∈ pixelAccesses n b px py v) : ∃ step, step < 3 ∧ a.PatchesAt b (fbBase (scanRowOf n py) px + 32 * step) := by
  rw [pixelAccesses] at h
  split at h
  · rw [writeTop, List.mem_append, List.mem_append] at h
    obtain (h | h) | h := h
    · exact ⟨2, by decide, patchesAt_of_mem_rmw2 h⟩
    · exact ⟨1, by decide, patchesAt_of_mem_rmw2 h⟩
    · exact patchesAt_of_mem_planes h
  · rw [writeBottom, List.mem_append, List.mem_append] at h
    obtain (h | h) | h := h
    · exact ⟨0, by decide, patchesAt_of_mem_rmw2 h⟩
    · exact ⟨1, by decide, patchesAt_of_mem_rmw2 h⟩
    · exact patchesAt_of_mem_planes h

/-- A coordinate that is not negative has the same value read either way (30_encoding.md R53). -/
theorem toInt_of_nonneg {x : Half} (h : 0 ≤ x.toInt) : x.toInt = x.toNat := by
  have hlt := x.isLt
  rw [BitVec.toInt_eq_toNat_cond] at h ⊢
  split <;> split at h <;> omega

/-- In-range coordinates lie in the logical extent, read as unsigned numbers (41_pixel_writer.md R82). -/
theorem lt_of_inBounds {n : RowCount} {rot : BitVec 2} {x y : Half} (h : inBounds n rot x y = true) :
    x.toNat < (logicalExtent n rot).1 ∧ y.toNat < (logicalExtent n rot).2 := by
  rw [inBounds, decide_eq_true_eq] at h
  obtain ⟨hx0, hx, hy0, hy⟩ := h
  rw [toInt_of_nonneg hx0] at hx
  rw [toInt_of_nonneg hy0] at hy
  omega

/-- The accesses an operation makes in a state; those that touch no framebuffer byte make none. -/
def State.accessesOf (s : State) : Instr → List Access
  | .setPixel x y c => s.setPixelAccesses x y c
  | .copyFwd => s.copyForwardAccesses
  | .bufRd off => [.respond s.bk off.toNat]
  | .bufWr off v => [.store s.bk off.toNat 0xFF v]
  | .begin | .stop | .swapReq | .rdStat | .tick => []

/-- The roles always name a buffer that exists (10_state.md R19). -/
theorem State.hasByte_bk (s : State) (off : Nat) : s.hasByte s.bk off = decide (off < s.fbSize) := by
  unfold State.hasByte State.bk
  cases s.straps.dbuf <;> simp

theorem State.hasByte_fr (s : State) (off : Nat) : s.hasByte s.fr off = decide (off < s.fbSize) := by
  unfold State.hasByte State.fr
  cases s.straps.dbuf <;> simp

/-- With `DBUF` the two roles never name one buffer (10_state.md R19). -/
theorem State.fr_ne_bk {s : State} (h : s.straps.dbuf = true) : s.fr ≠ s.bk := by
  rw [State.fr, State.bk, if_pos h, if_pos h]
  cases s.back <;> decide

theorem patchesAt_of_mem_setPixelAccesses {s : State} {x y c : Half} {a : Access} (h : a ∈ s.setPixelAccesses x y c) :
    ∃ off, off < s.fbSize ∧ a.PatchesAt s.bk off := by
  rw [State.setPixelAccesses] at h
  split at h
  · rename_i hin
    obtain ⟨hx, hy⟩ := lt_of_inBounds hin
    obtain ⟨hpx, hpy⟩ := rotate_lt s.straps.nrows s.rot hx hy
    obtain ⟨step, hstep, ha⟩ := patchesAt_of_mem_pixelAccesses h
    exact ⟨_, fbBase_add_lt (scanRowOf_lt hpy) hpx hstep, ha⟩
  · exact absurd h List.not_mem_nil

theorem mem_copyForwardAccesses {s : State} {a : Access} (h : a ∈ s.copyForwardAccesses) :
    ∃ off, off < s.fbSize ∧ (a = .load s.fr off ∨ a = .store s.bk off 0 0) := by
  rw [State.copyForwardAccesses] at h
  split at h
  · obtain ⟨off, hoff, ha⟩ := List.mem_flatMap.1 h
    exact ⟨off, List.mem_range.1 hoff, by simpa using ha⟩
  · exact absurd h List.not_mem_nil

/-- The access stores to no buffer but `b`. -/
def Access.StoresIn (b : Buf) : Access → Prop
  | .store b' _ _ _ => b' = b
  | .load _ _ => True
  | .respond _ _ => True

/-- The access leaves the response port alone. -/
def Access.Silent : Access → Prop
  | .respond _ _ => False
  | .load _ _ => True
  | .store _ _ _ _ => True

theorem Access.PatchesAt.exists {s : State} {b : Buf} {off : Nat} {a : Access} (h : a.PatchesAt b off)
    (hb : s.hasByte b off = true) : a.exists s = true := by
  obtain rfl | ⟨mask, set, rfl⟩ := h <;> exact hb

theorem Access.PatchesAt.storesIn {b : Buf} {off : Nat} {a : Access} (h : a.PatchesAt b off) : a.StoresIn b := by
  obtain rfl | ⟨mask, set, rfl⟩ := h
  · exact trivial
  · exact rfl

theorem Access.PatchesAt.silent {b : Buf} {off : Nat} {a : Access} (h : a.PatchesAt b off) : a.Silent := by
  obtain rfl | ⟨mask, set, rfl⟩ := h <;> exact trivial

/-- No operation computes an offset outside its buffer (20_memory.md R40), the two that take one being checked first (R50). -/
theorem State.accessesOf_exist {s t : State} {i : Instr} (h : exec i s = .next t) :
    (s.accessesOf i).all (Access.exists s) = true := by
  rw [List.all_eq_true]
  intro a ha
  cases i with
  | begin | stop | swapReq | rdStat | tick => exact absurd ha List.not_mem_nil
  | setPixel x y c =>
    obtain ⟨off, hoff, hat⟩ := patchesAt_of_mem_setPixelAccesses ha
    exact hat.exists (by simp [State.hasByte_bk, hoff])
  | copyFwd =>
    obtain ⟨off, hoff, rfl | rfl⟩ := mem_copyForwardAccesses ha
    · exact (s.hasByte_fr off).trans (decide_eq_true hoff)
    · exact (s.hasByte_bk off).trans (decide_eq_true hoff)
  | bufRd off =>
    obtain ⟨-, hoff, -⟩ := (execBufRd_eq_next_iff off s t).1 h
    obtain rfl := List.mem_singleton.1 ha
    exact (s.hasByte_bk _).trans (decide_eq_true hoff)
  | bufWr off v =>
    obtain ⟨-, hoff, -⟩ := (execBufWr_eq_next_iff off v s t).1 h
    obtain rfl := List.mem_singleton.1 ha
    exact (s.hasByte_bk _).trans (decide_eq_true hoff)

/-- The host writes the back buffer alone (20_memory.md R37). -/
theorem State.accessesOf_storesIn {s : State} {i : Instr} {a : Access} (ha : a ∈ s.accessesOf i) : a.StoresIn s.bk := by
  cases i with
  | begin | stop | swapReq | rdStat | tick => exact absurd ha List.not_mem_nil
  | setPixel x y c =>
    obtain ⟨off, -, hat⟩ := patchesAt_of_mem_setPixelAccesses ha
    exact hat.storesIn
  | copyFwd =>
    obtain ⟨off, -, rfl | rfl⟩ := mem_copyForwardAccesses ha
    · exact trivial
    · exact rfl
  | bufRd off =>
    obtain rfl := List.mem_singleton.1 ha
    exact trivial
  | bufWr off v =>
    obtain rfl := List.mem_singleton.1 ha
    exact rfl

/-- Of the accesses only `BUFRD`'s drives the response port (30_encoding.md R62). -/
theorem State.accessesOf_silent {s : State} {i : Instr} (hi : ∀ off, i ≠ .bufRd off) {a : Access} (ha : a ∈ s.accessesOf i) :
    a.Silent := by
  cases i with
  | begin | stop | swapReq | rdStat | tick => exact absurd ha List.not_mem_nil
  | setPixel x y c =>
    obtain ⟨off, -, hat⟩ := patchesAt_of_mem_setPixelAccesses ha
    exact hat.silent
  | copyFwd => obtain ⟨off, -, rfl | rfl⟩ := mem_copyForwardAccesses ha <;> exact trivial
  | bufRd off => exact absurd rfl (hi off)
  | bufWr off v =>
    obtain rfl := List.mem_singleton.1 ha
    exact trivial

/-! ## What a run of accesses does -/

/-- Accesses that store to one buffer leave the others as they are. -/
theorem makeAccesses_fb_of_storesIn {b b' : Buf} (hb : b' ≠ b) {as : List Access} (has : ∀ a ∈ as, a.StoresIn b) (h : Byte)
    (s : State) : (makeAccesses as h s).2.fb b' = s.fb b' := by
  induction as generalizing h s with
  | nil => rfl
  | cons a as ih =>
    have hstep : (a.after s h).fb b' = s.fb b' := by
      cases a with
      | load | respond => cases b' <;> rfl
      | store b'' off mask set =>
        obtain rfl : b'' = b := has _ List.mem_cons_self
        exact (s.fb_memWrite ..).trans (if_neg hb)
    exact (ih (fun a ha => has a (List.mem_cons_of_mem _ ha)) _ _).trans hstep

theorem makeAccesses_rspValid_of_silent {as : List Access} (has : ∀ a ∈ as, a.Silent) (h : Byte) (s : State) :
    (makeAccesses as h s).2.rspValid = s.rspValid := by
  induction as generalizing h s with
  | nil => rfl
  | cons a as ih =>
    have hstep : (a.after s h).rspValid = s.rspValid := by
      cases a with
      | load => rfl
      | store b off mask set => exact s.memWrite_rspValid ..
      | respond => exact (has _ List.mem_cons_self).elim
    exact (ih (fun a ha => has a (List.mem_cons_of_mem _ ha)) _ _).trans hstep

/-- Interrupted or not, an operation has made some of its accesses from the first on, and the bytes and the port are what those leave. -/
theorem hostStart_made (as : List Access) (s : State) :
    ∃ made rest, as = made ++ rest ∧ (hostStart as s).fb = (makeAccesses made 0 s).2.fb ∧
      (hostStart as s).rspValid = (makeAccesses made 0 s).2.rspValid := by
  obtain hrun | ⟨made, rest, ks, has, -, -, hrun⟩ := hostStart_cases as s
  · refine ⟨as, [], (List.append_nil as).symm, ?_, ?_⟩ <;> rw [hrun]
    funext b
    cases b <;> rfl
  · refine ⟨made, rest, has, ?_, ?_⟩ <;> rw [hrun]
    · funext b
      cases b <;> rfl
    · rfl

/-- What a host operation's accesses, and an expiry among them, leave alone. -/
structure State.HostFrame (s t : State) : Prop where
  straps : t.straps = s.straps
  rot : t.rot = s.rot
  active : t.active = s.active
  plane : t.plane = s.plane
  row : t.row = s.row
  swapreq : t.swapreq = s.swapreq
  back : t.back = s.back
  pins : t.pins = s.pins
  period : t.timer.period = s.timer.period
  out : t.out = s.out
  inputs : t.inputs = s.inputs

theorem makeAccesses_frame (as : List Access) (h : Byte) (s : State) : s.HostFrame (makeAccesses as h s).2 := by
  obtain ⟨hctl, -, -, hinputs, -⟩ := makeAccesses_control as h s
  exact ⟨hctl.straps, hctl.rot, hctl.active, hctl.plane, hctl.row, hctl.swapreq, hctl.back, hctl.pins,
    congrArg Timer.period hctl.timer, hctl.out, hinputs⟩

theorem hostRun_frame (as : List Access) (cuts : List Nat) (h : Byte) (s : State) : s.HostFrame (hostRun as cuts h s) := by
  obtain hrun | ⟨made, rest, ks, -, -, -, hrun⟩ := hostRun_cases as cuts h s <;> rw [hrun]
  · obtain ⟨⟩ := makeAccesses_frame as h s
    constructor <;> assumption
  · obtain ⟨⟩ := makeAccesses_frame made h s
    constructor <;> assumption

theorem hostStart_frame (as : List Access) (s : State) : s.HostFrame (hostStart as s) := by
  obtain hrun | ⟨made, rest, ks, -, -, -, hrun⟩ := hostStart_cases as s <;> rw [hrun]
  · obtain ⟨⟩ := makeAccesses_frame as 0 s
    constructor <;> assumption
  · obtain ⟨⟩ := makeAccesses_frame made 0 s
    constructor <;> assumption

/-- A resumed operation frames as a running one. -/
theorem hostResume_frame {p : Progress} {s t : State} (h : hostResume p s = .next t) : s.HostFrame t := by
  obtain ⟨-, rfl⟩ := hostResume_cases p s t h
  obtain ⟨⟩ := hostRun_frame p.todo s.preempt p.held { s with suspended := none }
  constructor <;> assumption

/-! ## What a host operation can be -/

/-- Everything an operation of the host can be, `BEGIN` apart: one of the three without accesses, or a run of its accesses. -/
theorem exec_host_cases {i : Instr} {s t : State} (h : exec i s = .next t) (hbegin : i ≠ .begin) (htick : i ≠ .tick) :
    s.active = true ∧
      ((i = .stop ∧ t = { s.undriveRsp.emitAll [.tmrStop, .blank true] with active := false }) ∨
        (i = .swapReq ∧ t = s.undriveRsp.requestSwap) ∨ (i = .rdStat ∧ t = s.respond s.statusByte) ∨
        (∃ off, i = .bufRd off ∧ t = hostStart (s.accessesOf i) s) ∨
        ((∀ off, i ≠ .bufRd off) ∧ t = hostStart (s.accessesOf i) s.undriveRsp)) := by
  cases i with
  | begin => exact absurd rfl hbegin
  | tick => exact absurd rfl htick
  | stop =>
    obtain ⟨hactive, ht⟩ := (execStop_eq_next_iff s t).1 h
    exact ⟨hactive, .inl ⟨rfl, ht⟩⟩
  | swapReq =>
    obtain ⟨hactive, ht⟩ := (execSwapReq_eq_next_iff s t).1 h
    exact ⟨hactive, .inr (.inl ⟨rfl, ht⟩)⟩
  | rdStat =>
    obtain ⟨hactive, ht⟩ := exec_rdStat_cases s t h
    exact ⟨hactive, .inr (.inr (.inl ⟨rfl, ht⟩))⟩
  | bufRd off =>
    obtain ⟨hactive, -, ht⟩ := (execBufRd_eq_next_iff off s t).1 h
    exact ⟨hactive, .inr (.inr (.inr (.inl ⟨off, rfl, ht⟩)))⟩
  | setPixel x y c =>
    obtain ⟨hactive, ht⟩ := (execSetPixel_eq_next_iff x y c s t).1 h
    exact ⟨hactive, .inr (.inr (.inr (.inr ⟨by simp, ht⟩)))⟩
  | copyFwd =>
    obtain ⟨hactive, ht⟩ := (execCopyFwd_eq_next_iff s t).1 h
    exact ⟨hactive, .inr (.inr (.inr (.inr ⟨by simp, ht⟩)))⟩
  | bufWr off v =>
    obtain ⟨hactive, -, ht⟩ := (execBufWr_eq_next_iff off v s t).1 h
    exact ⟨hactive, .inr (.inr (.inr (.inr ⟨by simp, ht⟩)))⟩

/-- A host operation, `BEGIN` apart, leaves the cursor, `back`, the straps and the script, and does not clear `swapreq`
(10_state.md R31). -/
theorem exec_host_frame {i : Instr} {s t : State} (h : exec i s = .next t) (hbegin : i ≠ .begin) (htick : i ≠ .tick) :
    t.plane = s.plane ∧ t.row = s.row ∧ t.back = s.back ∧ (s.swapreq = true → t.swapreq = true) ∧ t.inputs = s.inputs := by
  obtain ⟨-, ⟨-, rfl⟩ | ⟨-, rfl⟩ | ⟨-, rfl⟩ | ⟨-, -, rfl⟩ | ⟨-, rfl⟩⟩ := exec_host_cases h hbegin htick
  · simp
  · simp +contextual
  · simp
  · have hf := hostStart_frame (s.accessesOf i) s
    exact ⟨hf.plane, hf.row, hf.back, fun hs => hf.swapreq.trans hs, hf.inputs⟩
  · have hf := hostStart_frame (s.accessesOf i) s.undriveRsp
    exact ⟨hf.plane, hf.row, hf.back, fun hs => hf.swapreq.trans hs, hf.inputs⟩

/-! ## The response port and the front buffer -/

theorem hostStart_rspValid_of_silent {as : List Access} (has : ∀ a ∈ as, a.Silent) (s : State) :
    (hostStart as s).rspValid = s.rspValid := by
  obtain ⟨made, rest, rfl, -, hvalid⟩ := hostStart_made as s
  rw [hvalid]
  exact makeAccesses_rspValid_of_silent (fun a ha => has a (List.mem_append_left _ ha)) 0 s

theorem hostStart_fb_of_storesIn {b b' : Buf} (hb : b' ≠ b) {as : List Access} (has : ∀ a ∈ as, a.StoresIn b) (s : State) :
    (hostStart as s).fb b' = s.fb b' := by
  obtain ⟨made, rest, rfl, hfb, -⟩ := hostStart_made as s
  rw [hfb]
  exact makeAccesses_fb_of_storesIn hb (fun a ha => has a (List.mem_append_left _ ha)) 0 s

theorem exec_bufRd_of_inside {s : State} {off : Half} (hactive : s.active = true) (hoff : off.toNat < s.fbSize) :
    exec (.bufRd off) s = .next { s.respond (s.memRead s.bk off.toNat) with preempt := [] } :=
  (execBufRd_eq_next_iff off s _).2 ⟨hactive, hoff, rfl⟩

/-- Settles O17: `RDSTAT` and `BUFRD` answer with what they read; the others undrive the port and make silent accesses. -/
theorem responsePortDriven : Obligations.ResponsePortDriven := by
  unfold Obligations.ResponsePortDriven
  intro s t i h
  refine ⟨?rdStat, ?bufRd, ?others⟩
  case rdStat =>
    rintro rfl
    obtain ⟨-, rfl⟩ := exec_rdStat_cases s t h
    exact ⟨rfl, s.statusByte_eq⟩
  case bufRd =>
    rintro off rfl
    obtain ⟨hactive, hoff, rfl⟩ := (execBufRd_eq_next_iff off s t).1 h
    exact ⟨rfl, rfl⟩
  case others =>
    intro hrdStat hbufRd
    by_cases hbegin : i = .begin
    · subst hbegin
      obtain ⟨-, rfl⟩ := (execBegin_eq_next_iff s t).1 h
      simp [State.configurePins]
    by_cases htick : i = .tick
    · subst htick
      obtain ⟨-, -, rfl⟩ := (execTick_eq_next_iff s t).1 h
      rfl
    obtain ⟨-, ⟨-, rfl⟩ | ⟨-, rfl⟩ | ⟨hi, -⟩ | ⟨off, hi, -⟩ | ⟨-, rfl⟩⟩ := exec_host_cases h hbegin htick
    · rfl
    · simp
    · exact absurd hi hrdStat
    · exact absurd hi (hbufRd off)
    · exact hostStart_rspValid_of_silent (fun a ha => s.accessesOf_silent hbufRd ha) s.undriveRsp

theorem State.sweep_fb (s : State) : s.sweep.fb = s.fb := by
  funext b
  cases b <;> simp [State.sweep_eq, State.fb]

/-- Settles O24: a `TICK` writes no byte, and the host's accesses store to the back buffer, which is the other one. -/
theorem hostNeverWritesFrontBuffer : Obligations.HostNeverWritesFrontBuffer := by
  unfold Obligations.HostNeverWritesFrontBuffer
  intro s t i hdbuf hbegin h
  by_cases htick : i = .tick
  · subst htick
    obtain ⟨-, -, rfl⟩ := (execTick_eq_next_iff s t).1 h
    rw [State.sweep_fb]
  obtain ⟨-, ⟨-, rfl⟩ | ⟨-, rfl⟩ | ⟨-, rfl⟩ | ⟨-, -, rfl⟩ | ⟨-, rfl⟩⟩ := exec_host_cases h hbegin htick
  · cases s.fr <;> simp [State.fb]
  · cases s.fr <;> simp [State.fb]
  · cases s.fr <;> rfl
  · exact hostStart_fb_of_storesIn (State.fr_ne_bk hdbuf) (fun a ha => s.accessesOf_storesIn ha) s
  · exact hostStart_fb_of_storesIn (State.fr_ne_bk hdbuf) (fun a ha => s.accessesOf_storesIn ha) s.undriveRsp

end Sys2Proof.Machine

/-! PROOFS. The invariant of the machine's states: it holds at power-on and every move keeps it, and from it no move faults
(10_state.md R17, R25; 20_memory.md R40; 60_exceptions.md R132, R135). -/

namespace Sys2Proof.Machine

/-! ## One equation for each kind of move -/

section Turn

variable {s : State}

theorem step_of_due (hdue : s.tickDue = true) : step s = exec .tick s := by
  simp [step, State.turn, hdue]

theorem step_of_suspended {p : Progress} (hdue : s.tickDue = false) (hsuspended : s.suspended = some p) :
    step s = hostResume p s := by
  simp [step, State.turn, hdue, hsuspended]

theorem step_of_idle (hdue : s.tickDue = false) (hfree : s.suspended = none) (hin : s.inputs = []) :
    step s = .next s.expireIfRunning := by
  simp [step, State.turn, hdue, hfree, hin]

theorem step_of_expire {rest : List Input} (hdue : s.tickDue = false) (hfree : s.suspended = none)
    (hin : s.inputs = .expire :: rest) : step s = .next { s.expireIfRunning with inputs := rest } := by
  simp [step, State.turn, hdue, hfree, hin]

theorem step_of_rot {r : BitVec 2} {rest : List Input} (hdue : s.tickDue = false) (hfree : s.suspended = none)
    (hin : s.inputs = .rot r :: rest) : step s = .next { s with rot := r, inputs := rest } := by
  simp [step, State.turn, hdue, hfree, hin]

theorem step_of_command {w : CmdWord} {cuts : List Nat} {rest : List Input} {i : Instr} (hdue : s.tickDue = false)
    (hfree : s.suspended = none) (hin : s.inputs = .command w cuts :: rest) (hw : decodeCommand w = .ok i) :
    step s = exec i { s with inputs := rest, preempt := cuts } := by
  simp [step, State.turn, State.accept, hdue, hfree, hin, hw]

end Turn

/-- Settles O6. -/
theorem stepRunsPresentedCommand : Obligations.StepRunsPresentedCommand := by
  unfold Obligations.StepRunsPresentedCommand
  exact fun s w cuts rest i hdue hfree hin hw => step_of_command hdue hfree hin hw

/-- Settles O7. -/
theorem stepTakesPendingTickFirst : Obligations.StepTakesPendingTickFirst := by
  unfold Obligations.StepTakesPendingTickFirst
  exact fun s hactive hpending => step_of_due (Bool.and_eq_true_iff.2 ⟨hactive, hpending⟩)

/-- Settles O8. -/
theorem stepResumesInterruptedOperation : Obligations.StepResumesInterruptedOperation := by
  unfold Obligations.StepResumesInterruptedOperation
  exact fun s p hdue hsuspended hexist => (step_of_suspended hdue hsuspended).trans (if_pos hexist)

theorem State.expireIfRunning_of_run {s : State} (hrun : s.timer.run = true) : s.expireIfRunning = s.expire := if_pos hrun

theorem State.expireIfRunning_of_stopped {s : State} (hrun : s.timer.run = false) : s.expireIfRunning = s :=
  if_neg (by simp [hrun])

/-- Settles O9: scripted or with an empty script, an expiry is the running timer's alone. -/
theorem timerExpiresOnce : Obligations.TimerExpiresOnce := by
  unfold Obligations.TimerExpiresOnce
  refine fun s hdue hfree => ⟨fun rest hin hrun => ?_, fun rest hin hrun => ?_, fun hin hrun => ?_, fun hin hrun => ?_⟩
  · rw [step_of_expire hdue hfree hin, State.expireIfRunning_of_run hrun, State.expire]
  · rw [step_of_expire hdue hfree hin, State.expireIfRunning_of_stopped hrun]
  · rw [step_of_idle hdue hfree hin, State.expireIfRunning_of_run hrun, State.expire]
  · rw [step_of_idle hdue hfree hin, State.expireIfRunning_of_stopped hrun]

/-- Settles O10: a presented word comes before anything else, and the event makes the `TICK` due. -/
theorem storedWordRunsNext : Obligations.StoredWordRunsNext := by
  unfold Obligations.StoredWordRunsNext
  intro s nbits w i hdecode
  rw [decodeTableWord] at hdecode
  split at hdecode
  · cases hdecode
  · rename_i p hp
    have hi : decode p = .ok i := by
      split at hdecode
      · rename_i j hj
        rw [hj, Option.some.inj hdecode]
      · cases hdecode
    rw [State.withFetchWord, hp]
    cases p with
    | command w =>
      refine ⟨_, step_of_command (Bool.and_false _) rfl rfl hi, ?_⟩
      simp [State.present]
    | event e =>
      have he : e = 1 ∧ Instr.tick = i := by
        simp only [decode, decodeEvent] at hi
        split at hi
        · rename_i he
          exact ⟨he, Except.ok.inj hi⟩
        · cases hi
      obtain ⟨rfl, rfl⟩ := he
      refine ⟨_, step_of_due rfl, ?_⟩
      simp [State.present]

/-- Settles O11: the four fields are written out in `resetWith`, whatever the straps. -/
theorem powerOnValues : Obligations.PowerOnValues := by
  unfold Obligations.PowerOnValues
  exact ⟨fun p => ⟨rfl, rfl, rfl, rfl⟩, Config.straps, rfl⟩

/-! ## The invariant under the shared operations -/

/-- `Running` speaks of the control state alone. -/
theorem State.Running.of_control {s t : State} (h : s.Running) (hc : s.SameControl t) : t.Running where
  row_lt := by rw [hc.row, State.nrows_congr hc.straps]; exact h.row_lt
  timer_xor := by rw [hc.timer]; exact h.timer_xor
  period_pos := by rw [hc.timer]; exact h.period_pos
  swap_needs_dbuf := by rw [hc.swapreq, hc.straps]; exact h.swap_needs_dbuf
  back_needs_dbuf := by rw [hc.back, hc.straps]; exact h.back_needs_dbuf
  addr_lt := by rw [hc.pins, State.nrows_congr hc.straps]; exact h.addr_lt
  addr_row := by rw [hc.plane, hc.pins, hc.row]; exact h.addr_row
  lat_low := by rw [hc.pins]; exact h.lat_low
  clk_low := by rw [hc.pins]; exact h.clk_low

/-- A move that keeps the control state and any progress needs care only for the bytes. -/
theorem State.Inv.of_control {s t : State} (h : s.Inv) (hc : s.SameControl t) (hfit : t.BuffersFit)
    (hsuspended : t.suspended = s.suspended) : t.Inv where
  buffers := hfit
  running := fun hactive => (h.running (hc.active ▸ hactive)).of_control hc
  stopped := fun hinactive =>
    have hs := h.stopped (hc.active ▸ hinactive)
    ⟨by rw [hc.timer]; exact hs.not_run, by rw [hc.timer]; exact hs.not_pending, hsuspended.trans hs.none_suspended⟩
  progress_exists := fun p hp => by
    rw [Access.exists_congr hc.straps]
    exact h.progress_exists p (hsuspended ▸ hp)

/-- Only an active machine's timer runs (10_state.md R34). -/
theorem State.Inv.active_of_run {s : State} (h : s.Inv) (hrun : s.timer.run = true) : s.active = true := by
  cases hactive : s.active with
  | true => rfl
  | false => exact absurd ((h.stopped hactive).not_run.symm.trans hrun) (by decide)

theorem State.Inv.expire {s : State} (h : s.Inv) (hrun : s.timer.run = true) : s.expire.Inv where
  buffers := ⟨h.buffers.1, h.buffers.2, h.buffers.3, h.buffers.4, h.buffers.5⟩
  running := fun hactive =>
    have hr := h.running hactive
    ⟨hr.row_lt, rfl, hr.period_pos, hr.swap_needs_dbuf, hr.back_needs_dbuf, hr.addr_lt, hr.addr_row, hr.lat_low, hr.clk_low⟩
  stopped := fun hinactive => absurd ((h.active_of_run hrun).symm.trans hinactive) (by decide)
  progress_exists := h.progress_exists

theorem State.Inv.expireIfRunning {s : State} (h : s.Inv) : s.expireIfRunning.Inv := by
  rw [State.expireIfRunning]
  split
  · rename_i hrun
    exact h.expire hrun
  · exact h

theorem State.Inv.withScript {s : State} (h : s.Inv) (rest : List Input) (cuts : List Nat) :
    ({ s with inputs := rest, preempt := cuts } : State).Inv :=
  h.of_control ⟨rfl, rfl, rfl, rfl, rfl, rfl, rfl, rfl, rfl, rfl⟩
    ⟨h.buffers.1, h.buffers.2, h.buffers.3, h.buffers.4, h.buffers.5⟩ rfl

theorem State.Inv.withRot {s : State} (h : s.Inv) (r : BitVec 2) : ({ s with rot := r } : State).Inv where
  buffers := ⟨h.buffers.1, h.buffers.2, h.buffers.3, h.buffers.4, h.buffers.5⟩
  running := fun hactive =>
    have hr := h.running hactive
    ⟨hr.row_lt, hr.timer_xor, hr.period_pos, hr.swap_needs_dbuf, hr.back_needs_dbuf, hr.addr_lt, hr.addr_row, hr.lat_low,
      hr.clk_low⟩
  stopped := fun hinactive =>
    have hs := h.stopped hinactive
    ⟨hs.not_run, hs.not_pending, hs.none_suspended⟩
  progress_exists := h.progress_exists

/-- While the machine is active a progress on existing bytes may be put in place of another. -/
theorem State.Inv.withProgress {s : State} (h : s.Inv) (hactive : s.active = true) {q : Option Progress} (ks : List Nat)
    (hq : ∀ p, q = some p → p.todo.all (Access.exists s) = true) : ({ s with suspended := q, preempt := ks } : State).Inv where
  buffers := ⟨h.buffers.1, h.buffers.2, h.buffers.3, h.buffers.4, h.buffers.5⟩
  running := fun _ =>
    have hr := h.running hactive
    ⟨hr.row_lt, hr.timer_xor, hr.period_pos, hr.swap_needs_dbuf, hr.back_needs_dbuf, hr.addr_lt, hr.addr_row, hr.lat_low,
      hr.clk_low⟩
  stopped := fun hinactive => absurd (hactive.symm.trans hinactive) (by decide)
  progress_exists := hq

theorem State.Inv.undriveRsp {s : State} (h : s.Inv) : s.undriveRsp.Inv :=
  h.of_control ⟨rfl, rfl, rfl, rfl, rfl, rfl, rfl, rfl, rfl, rfl⟩
    ⟨h.buffers.1, h.buffers.2, h.buffers.3, h.buffers.4, h.buffers.5⟩ rfl

theorem State.Inv.makeAccesses {s : State} (h : s.Inv) (as : List Access) (v : Byte)
    (has : as.all (Access.exists s) = true) : (Machine.makeAccesses as v s).2.Inv := by
  obtain ⟨hctl, hsuspended, -⟩ := makeAccesses_control as v s
  exact h.of_control hctl (h.buffers.makeAccesses as v has) hsuspended

/-- After some of its accesses on existing bytes an operation may be suspended by the running timer, the rest being kept. -/
theorem State.Inv.suspendAfter {s : State} (h : s.Inv) {made rest : List Access} {v : Byte}
    (has : (made ++ rest).all (Access.exists s) = true) (hrun : s.timer.run = true) (ks : List Nat) :
    ({ (Machine.makeAccesses made v s).2.expire with
      suspended := some ⟨(Machine.makeAccesses made v s).1, rest⟩, preempt := ks } : State).Inv := by
  rw [List.all_append, Bool.and_eq_true] at has
  obtain ⟨hctl, -⟩ := makeAccesses_control made v s
  have hrun' : (Machine.makeAccesses made v s).2.timer.run = true := by rw [hctl.timer]; exact hrun
  have hmade := h.makeAccesses made v has.1
  refine (hmade.expire hrun').withProgress (hmade.active_of_run hrun') ks fun p hp => ?_
  obtain rfl := Option.some.inj hp
  have hexists : Access.exists (Machine.makeAccesses made v s).2.expire = Access.exists s := Access.exists_congr hctl.straps
  exact hexists ▸ has.2

theorem State.Inv.hostRun {s : State} (h : s.Inv) (as : List Access) (cuts : List Nat) (v : Byte)
    (has : as.all (Access.exists s) = true) : (Machine.hostRun as cuts v s).Inv := by
  obtain hrun | ⟨made, rest, ks, rfl, -, htimer, hrun⟩ := hostRun_cases as cuts v s <;> rw [hrun]
  · exact (h.makeAccesses as v has).withScript _ _
  · exact h.suspendAfter has htimer ks

theorem State.Inv.hostStart {s : State} (h : s.Inv) (as : List Access) (has : as.all (Access.exists s) = true) :
    (Machine.hostStart as s).Inv := by
  obtain hrun | ⟨made, rest, ks, rfl, -, htimer, hrun⟩ := hostStart_cases as s <;> rw [hrun]
  · exact (h.makeAccesses as 0 has).withScript _ _
  · exact h.suspendAfter has htimer ks

/-! ## The invariant under `BEGIN`, `STOP` and `TICK` -/

/-- Events touch the pins, the timer and `Out` alone (10_state.md R33). -/
theorem State.emitAll_eq (s : State) (es : List Event) :
    s.emitAll es = { s with pins := es.foldl Pins.apply s.pins, timer := es.foldl Timer.apply s.timer, out := s.out ++ es } := by
  induction es generalizing s with
  | nil => simp
  | cons e es ih => simp [ih, State.emit]

/-- `BEGIN` field by field (43_buffer_control.md R115). -/
theorem State.begun_eq (s : State) :
    s.begun = { s with
      active := true
      plane := 3
      row := BitVec.ofNat 4 (s.nrows - 1)
      swapreq := false
      back := .fb0
      fb0 := s.fb0.clear s.fbSize
      fb1 := if s.straps.dbuf then s.fb1.clear s.fbSize else s.fb1
      pins := ⟨true, false, false, 0, 0⟩
      timer := ⟨BitVec.ofNat 16 s.straps.firstInterval, true, false⟩
      out := s.out ++ [.blank true, .lat false, .clk false, .addr 0, .data 0, .tmr (BitVec.ofNat 16 s.straps.firstInterval)]
      rsp := Config.undrivenRsp s.undriven
      rspValid := false
      undriven := s.undriven + 1 } := by
  rw [State.begun, State.configurePins, State.emitAll_eq, State.clearBuffers]
  cases hdbuf : s.straps.dbuf <;>
    simp [State.emit, State.enterTick, State.undriveRsp, State.fbSize, hdbuf, Pins.apply, Timer.apply]

/-- What lies within the buffers is empty after the fill of `BEGIN`. -/
theorem State.BuffersFit.begun {s : State} (h : s.BuffersFit) : s.begun.fb0 = [] ∧ s.begun.fb1 = [] := by
  rw [State.begun_eq]
  refine ⟨Memory.clear_eq_nil _ _ h.fb0_wf h.fb0_within, ?_⟩
  change (if s.straps.dbuf = true then s.fb1.clear s.fbSize else s.fb1) = []
  split
  · exact Memory.clear_eq_nil _ _ h.fb1_wf h.fb1_within
  · rename_i hdbuf
    exact h.fb1_absent (by simpa using hdbuf)

theorem State.BuffersFit.of_empty {s : State} (h0 : s.fb0 = []) (h1 : s.fb1 = []) : s.BuffersFit :=
  ⟨by rw [h0]; rfl, by rw [h1]; rfl, by rw [h0]; rfl, by rw [h1]; rfl, fun _ => h1⟩

theorem State.nrows_pos (s : State) : 0 < s.nrows := by
  rw [State.nrows]
  cases s.straps.nrows <;> decide

theorem State.Inv.begun {s : State} (h : s.Inv) (hinactive : s.active = false) : s.begun.Inv where
  buffers := State.BuffersFit.of_empty h.buffers.begun.1 h.buffers.begun.2
  running := fun _ => {
    row_lt := by rw [State.nrows_congr s.begun_frame.1, ← s.begun_row_succ]; exact Nat.lt_succ_self _
    timer_xor := by rw [s.begun_timer]; rfl
    period_pos := by rw [s.begun_timer, toNat_firstInterval]; exact s.straps.first_pos
    swap_needs_dbuf := by simp [s.begun_swapreq]
    back_needs_dbuf := fun _ => s.begun_back
    addr_lt := by rw [s.begun_pins]; exact s.begun.nrows_pos
    addr_row := by rw [s.begun_plane]; simp
    lat_low := by rw [s.begun_pins]
    clk_low := by rw [s.begun_pins] }
  stopped := fun hb => absurd hb (by simp [State.begun])
  progress_exists := fun p hp => by
    have hnone : s.begun.suspended = none := by
      simp [State.begun, State.configurePins, (h.stopped hinactive).none_suspended]
    simp [hnone] at hp

/-- Stopping needs no operation in progress, which `STOP` is taken without (10_state.md R29). -/
theorem State.Inv.stopped_of_stop {s : State} (h : s.Inv) (hfree : s.suspended = none) :
    ({ s.undriveRsp.emitAll [.tmrStop, .blank true] with active := false } : State).Inv where
  buffers := ⟨h.buffers.1, h.buffers.2, h.buffers.3, h.buffers.4, h.buffers.5⟩
  running := fun hactive => absurd hactive (by simp)
  stopped := fun _ => ⟨rfl, rfl, hfree⟩
  progress_exists := fun p hp => by
    change s.suspended = some p at hp
    simp [hfree] at hp

/-- The pins a `TICK` leaves (42_scan_sequencer.md R96, R102 to R104). -/
theorem State.sweep_pins (s : State) :
    s.sweep.pins = {
      blank := false
      lat := false
      clk := false
      addr := if s.advanceCursor.plane = 1 then s.advanceCursor.row else s.pins.addr
      data := lineAt (s.advanceCursor.fb s.advanceCursor.fr) s.advanceCursor.plane.toNat s.advanceCursor.row.toNat 31 } := by
  have hpins : s.sweep.pins = s.sweepEvents.foldl Pins.apply s.pins := by simp [State.sweep_eq]
  rw [hpins, State.sweepEvents, rowAddressEvents]
  split <;> simp only [List.foldl_append, List.foldl_cons, List.foldl_nil, lineEvents_pins, Pins.apply]

theorem State.advanceCursor_row_lt {s : State} (hrow : s.row.toNat < s.nrows) : s.advanceCursor.row.toNat < s.nrows := by
  obtain ⟨-, hc⟩ | ⟨-, hnext, hc⟩ | ⟨-, -, -, hc⟩ | ⟨-, -, -, hc⟩ := s.advanceCursor_cases hrow <;> rw [hc]
  · exact hrow
  · have hfits : s.row.toNat + 1 < 2 ^ 4 := hnext.trans_le s.nrows_le
    exact ((BitVec.toNat_ofNat ..).trans (Nat.mod_eq_of_lt hfits)).trans_lt hnext
  all_goals exact s.nrows_pos

/-- Step 3 swaps only on a request, and clears it. -/
theorem State.advanceCursor_back (s : State) (hrow : s.row.toNat < s.nrows) :
    (s.advanceCursor.back = s.back ∧ s.advanceCursor.swapreq = s.swapreq) ∨
      (s.swapreq = true ∧ s.advanceCursor.back = s.back.other ∧ s.advanceCursor.swapreq = false) := by
  obtain ⟨-, hc⟩ | ⟨-, -, hc⟩ | ⟨-, -, hs, hc⟩ | ⟨-, -, -, hc⟩ := s.advanceCursor_cases hrow <;> rw [hc]
  · exact .inl ⟨rfl, rfl⟩
  · exact .inl ⟨rfl, rfl⟩
  · exact .inr ⟨hs, rfl, rfl⟩
  · exact .inl ⟨rfl, rfl⟩

@[simp] theorem State.sweep_swapreq (s : State) : s.sweep.swapreq = s.advanceCursor.swapreq := by
  simp [State.sweep_eq]

@[simp] theorem State.sweep_back (s : State) : s.sweep.back = s.advanceCursor.back := by
  simp [State.sweep_eq]

@[simp] theorem State.sweep_fb0 (s : State) : s.sweep.fb0 = s.fb0 := by
  simp [State.sweep_eq]

@[simp] theorem State.sweep_fb1 (s : State) : s.sweep.fb1 = s.fb1 := by
  simp [State.sweep_eq]

@[simp] theorem State.sweep_active (s : State) : s.sweep.active = s.active := by
  simp [State.sweep_eq]

@[simp] theorem State.sweep_suspended (s : State) : s.sweep.suspended = s.suspended := by
  simp [State.sweep_eq]

@[simp] theorem State.sweep_inputs (s : State) : s.sweep.inputs = s.inputs := by
  simp [State.sweep_eq]

@[simp] theorem State.sweep_preempt (s : State) : s.sweep.preempt = s.preempt := by
  simp [State.sweep_eq]

/-- A machine that has made a `TICK` into plane 1, 2 or 3 has its row on the address lines (42_scan_sequencer.md R110). -/
theorem State.Running.sweep_addr_row {s : State} (h : s.Running) (hplane : s.sweep.plane ≠ 0) :
    s.sweep.pins.addr = s.sweep.row := by
  rw [State.sweep_plane] at hplane
  rw [State.sweep_addr, State.sweep_row]
  split
  · rfl
  · rename_i hone
    obtain ⟨hlt, hc⟩ | ⟨-, -, hc⟩ | ⟨-, -, -, hc⟩ | ⟨-, -, -, hc⟩ := s.advanceCursor_cases h.row_lt <;> rw [hc] at hplane hone ⊢
    · have hinside : s.plane = 1 ∨ s.plane = 2 := by
        have hfirst : s.plane.toNat ≠ 0 := fun hzero => hone (by simp [hzero])
        have hcases : s.plane.toNat = 1 ∨ s.plane.toNat = 2 := by omega
        exact hcases.imp (fun h => BitVec.eq_of_toNat_eq h) (fun h => BitVec.eq_of_toNat_eq h)
      exact h.addr_row hinside
    all_goals exact absurd rfl hplane

theorem State.Running.sweep {s : State} (h : s.Running) : s.sweep.Running where
  row_lt := by
    rw [State.sweep_row, State.nrows_congr s.sweep_straps]
    exact State.advanceCursor_row_lt h.row_lt
  timer_xor := by rw [State.sweep_timer]; rfl
  period_pos := by
    rw [State.sweep_timer, BitVec.toNat_ofNat, Nat.mod_eq_of_lt (duration_lt s.straps s.plane.isLt)]
    exact one_le_duration s.straps s.plane.toNat
  swap_needs_dbuf := by
    rw [State.sweep_swapreq, State.sweep_straps]
    obtain ⟨-, hs⟩ | ⟨-, -, hs⟩ := s.advanceCursor_back h.row_lt <;> rw [hs]
    · exact h.swap_needs_dbuf
    · simp
  back_needs_dbuf := by
    rw [State.sweep_back, State.sweep_straps]
    intro hdbuf
    obtain ⟨hb, -⟩ | ⟨hs, -, -⟩ := s.advanceCursor_back h.row_lt
    · exact hb.trans (h.back_needs_dbuf hdbuf)
    · exact absurd ((h.swap_needs_dbuf hs).symm.trans hdbuf) (by decide)
  addr_lt := by
    rw [State.sweep_addr, State.nrows_congr s.sweep_straps]
    split
    · exact State.advanceCursor_row_lt h.row_lt
    · exact h.addr_lt
  addr_row := by
    rintro (hplane | hplane)
    · exact h.sweep_addr_row (by rw [hplane]; decide)
    · exact h.sweep_addr_row (by rw [hplane]; decide)
  lat_low := by rw [State.sweep_pins]
  clk_low := by rw [State.sweep_pins]

theorem State.Inv.sweep {s : State} (h : s.Inv) (hactive : s.active = true) : s.sweep.Inv where
  buffers := by
    obtain ⟨h0, h1, h2, h3, h4⟩ := h.buffers
    constructor <;> simpa [State.fbSize]
  running := fun _ => (h.running hactive).sweep
  stopped := fun hinactive => absurd (hactive.symm.trans (s.sweep_active.symm.trans hinactive)) (by decide)
  progress_exists := fun p hp => by
    rw [Access.exists_congr s.sweep_straps]
    exact h.progress_exists p (s.sweep_suspended ▸ hp)

theorem State.Inv.requestSwap {s : State} (h : s.Inv) : s.requestSwap.Inv where
  buffers := by
    obtain ⟨h0, h1, h2, h3, h4⟩ := h.buffers
    constructor <;> simpa [State.fbSize]
  running := fun hactive => by
    have hr := h.running (by simpa using hactive)
    constructor
    case swap_needs_dbuf =>
      simp only [State.requestSwap_swapreq, State.requestSwap_straps, Bool.or_eq_true]
      exact fun hs => hs.elim id hr.swap_needs_dbuf
    case row_lt => simpa [State.nrows] using hr.row_lt
    case timer_xor => simpa using hr.timer_xor
    case period_pos => simpa using hr.period_pos
    case back_needs_dbuf => simpa using hr.back_needs_dbuf
    case addr_lt => simpa [State.nrows] using hr.addr_lt
    case addr_row => simpa using hr.addr_row
    case lat_low => simpa using hr.lat_low
    case clk_low => simpa using hr.clk_low
  stopped := fun hinactive =>
    have hs := h.stopped (by simpa using hinactive)
    ⟨by simpa using hs.not_run, by simpa using hs.not_pending, by simpa using hs.none_suspended⟩
  progress_exists := fun p hp => by
    rw [Access.exists_congr s.requestSwap_straps]
    exact h.progress_exists p (by simpa using hp)

theorem State.Inv.respond {s : State} (h : s.Inv) (v : Byte) : (s.respond v).Inv :=
  h.of_control ⟨rfl, rfl, rfl, rfl, rfl, rfl, rfl, rfl, rfl, rfl⟩
    ⟨h.buffers.1, h.buffers.2, h.buffers.3, h.buffers.4, h.buffers.5⟩ rfl

/-! ## Every move keeps the invariant -/

/-- No operation in progress, every operation that is accepted keeps the invariant. -/
theorem exec_inv {i : Instr} {s t : State} (h : s.Inv) (hfree : s.suspended = none) (hexec : exec i s = .next t) : t.Inv := by
  by_cases hbegin : i = .begin
  · subst hbegin
    obtain ⟨hinactive, rfl⟩ := (execBegin_eq_next_iff s t).1 hexec
    exact h.begun hinactive
  by_cases htick : i = .tick
  · subst htick
    obtain ⟨hdue, -, rfl⟩ := (execTick_eq_next_iff s t).1 hexec
    exact h.sweep (Bool.and_eq_true_iff.1 hdue).1
  obtain ⟨-, ⟨-, rfl⟩ | ⟨-, rfl⟩ | ⟨-, rfl⟩ | ⟨-, -, rfl⟩ | ⟨-, rfl⟩⟩ := exec_host_cases hexec hbegin htick
  · exact h.stopped_of_stop hfree
  · exact h.undriveRsp.requestSwap
  · exact h.respond _
  · exact h.hostStart _ (State.accessesOf_exist hexec)
  · exact h.undriveRsp.hostStart _ (State.accessesOf_exist hexec)

/-- Every move of the machine and of the world outside keeps the invariant. -/
theorem step_inv {s t : State} (h : s.Inv) (hstep : step s = .next t) : t.Inv := by
  obtain ⟨hdue, htick⟩ | ⟨-, p, hp, hres⟩ | ⟨-, -, -, rfl⟩ | ⟨-, -, rest, -, rfl⟩ | ⟨-, -, r, rest, -, rfl⟩ |
    ⟨-, hfree, w, cuts, rest, i, -, -, hexec⟩ := step_cases s t hstep
  · obtain ⟨-, -, rfl⟩ := (execTick_eq_next_iff s t).1 htick
    exact h.sweep (Bool.and_eq_true_iff.1 hdue).1
  · obtain ⟨hexist, rfl⟩ := hostResume_cases p s t hres
    have hactive : s.active = true := by
      cases hactive : s.active with
      | true => rfl
      | false => simp [(h.stopped hactive).none_suspended] at hp
    have hfree : ({ s with suspended := none } : State).Inv := h.withProgress hactive s.preempt (by simp)
    exact hfree.hostRun p.todo s.preempt p.held hexist
  · exact h.expireIfRunning
  · exact h.expireIfRunning.withScript rest _
  · exact (h.withRot r).withScript rest _
  · exact exec_inv (h.withScript rest cuts) hfree hexec

/-- Settles O56: by the cases of a step, each of which keeps the invariant. -/
theorem stepKeepsInvariant : Obligations.StepKeepsInvariant := by
  unfold Obligations.StepKeepsInvariant
  exact fun _ _ => step_inv

/-- Settles O55: at power-on nothing is listed, nothing runs and nothing is pending. -/
theorem invariantAtPowerOn : Obligations.InvariantAtPowerOn := by
  unfold Obligations.InvariantAtPowerOn
  refine fun p => ⟨State.BuffersFit.of_empty rfl rfl, fun hactive => ?_, fun _ => ⟨rfl, rfl, rfl⟩, fun q hq => ?_⟩
  · exact absurd hactive (by simp [State.resetWith])
  · exact absurd hq (by simp [State.resetWith])

/-! ## No fault -/

/-- Only `TICK` has the model's fault among its outcomes (log entry 10). -/
theorem exec_ne_fault {i : Instr} (hi : i ≠ .tick) (s : State) (f : Fault) : exec i s ≠ .fault f := by
  cases i with
  | tick => exact absurd rfl hi
  | begin | stop | setPixel | swapReq | rdStat | copyFwd =>
    simp only [exec, execBegin, execStop, execSetPixel, execSwapReq, execRdStat, execCopyFwd]
    split <;> simp
  | bufRd | bufWr =>
    simp only [exec, execBufRd, execBufWr]
    split <;> [(split <;> simp); simp]

/-- Settles O57: the two sources of the fault are a row and an access outside the buffer, which the invariant rules out. -/
theorem invariantStateNeverFaults : Obligations.InvariantStateNeverFaults := by
  unfold Obligations.InvariantStateNeverFaults
  intro s f h hfault
  cases hdue : s.tickDue with
  | true =>
    obtain ⟨hactive, hpending⟩ := Bool.and_eq_true_iff.1 hdue
    rw [step_of_due hdue, exec_tick_of_due hactive hpending (h.running hactive).row_lt] at hfault
    cases hfault
  | false =>
    cases hsuspended : s.suspended with
    | some p =>
      rw [step_of_suspended hdue hsuspended, hostResume, if_pos (h.progress_exists p hsuspended)] at hfault
      cases hfault
    | none =>
      cases hin : s.inputs with
      | nil =>
        rw [step_of_idle hdue hsuspended hin] at hfault
        cases hfault
      | cons input rest =>
        cases input with
        | expire =>
          rw [step_of_expire hdue hsuspended hin] at hfault
          cases hfault
        | rot r =>
          rw [step_of_rot hdue hsuspended hin] at hfault
          cases hfault
        | command w cuts =>
          cases hw : decodeCommand w with
          | ok i =>
            rw [step_of_command hdue hsuspended hin hw] at hfault
            exact exec_ne_fault (ne_tick_of_decodeCommand hw) _ f hfault
          | error e =>
            rw [step_of_rejected hdue hsuspended hin hw] at hfault
            cases hfault

end Sys2Proof.Machine

/-! PROOFS. Initialisation and shut-down, the handshake's small operations, and what holds of every step: `Out` replays the pins, and
only `TICK` moves the cursor (10_state.md R31, R33; 43_buffer_control.md; 70_reset_and_hazards.md R152). -/

namespace Sys2Proof.Machine

/-! ## `BEGIN` and `STOP` -/

/-- Settles O13: with the invariant the fill leaves both buffers empty, and `BEGIN` writes every register that could differ. -/
theorem beginIsFullReinitialisation : Obligations.BeginIsFullReinitialisation := by
  unfold Obligations.BeginIsFullReinitialisation
  intro s h hinactive
  refine ⟨s.begun, (State.resetWith s.straps).begun, exec_begin_of_inactive hinactive, exec_begin_of_inactive rfl, ?_⟩
  obtain ⟨h0, h1⟩ := h.buffers.begun
  obtain ⟨hr0, hr1⟩ := (invariantAtPowerOn s.straps).buffers.begun
  have hfree : s.suspended = none := (h.stopped hinactive).none_suspended
  rw [State.begun_eq] at h0 h1 hr0 hr1 ⊢
  rw [State.begun_eq]
  simp only at h0 h1 hr0 hr1
  simp [h0, h1, hfree, State.resetWith, State.nrows]
  exact ⟨hr0, hr1⟩

theorem exec_stop_of_active {s : State} (hactive : s.active = true) :
    exec .stop s = .next { s.undriveRsp.emitAll [.tmrStop, .blank true] with active := false } :=
  if_pos hactive

theorem exec_of_inactive {s : State} (hinactive : s.active = false) :
    exec .stop s = .refused .notActive ∧ exec .swapReq s = .refused .notActive ∧ exec .copyFwd s = .refused .notActive := by
  have hnot : ¬ s.active = true := by simp [hinactive]
  exact ⟨if_neg hnot, if_neg hnot, if_neg hnot⟩

/-- Settles O14: two events and one flag; without the flag nothing but `BEGIN` is accepted. -/
theorem stopShutsDown : Obligations.StopShutsDown := by
  unfold Obligations.StopShutsDown
  refine ⟨by decide, fun s hinactive => (exec_of_inactive hinactive).1, fun s hactive => ?_⟩
  refine ⟨_, exec_stop_of_active hactive, ?_, rfl, fun i hi => exec_refused_of_inactive rfl hi⟩
  rw [State.emitAll_eq]
  rfl

/-- An expiry between operations frames as one inside an operation. -/
theorem State.expireIfRunning_frame (s : State) : s.HostFrame s.expireIfRunning := by
  rw [State.expireIfRunning]
  split <;> constructor <;> rfl

/-- Settles O15: without `active` a step can only be a move from outside, or `BEGIN`, which has one word. -/
theorem onlyBeginActivates : Obligations.OnlyBeginActivates := by
  unfold Obligations.OnlyBeginActivates
  intro s t hinactive hstep
  have hstill : ∀ {u : State}, s.HostFrame u → u.active = false ∧ u.plane = s.plane ∧ u.row = s.row ∧ u.back = s.back ∧
      u.swapreq = s.swapreq ∧ u.pins = s.pins ∧ u.timer.period = s.timer.period ∧ u.out = s.out := fun hf =>
    ⟨hf.active.trans hinactive, hf.plane, hf.row, hf.back, hf.swapreq, hf.pins, hf.period, hf.out⟩
  obtain ⟨hdue, -⟩ | ⟨-, p, -, hres⟩ | ⟨-, -, -, rfl⟩ | ⟨-, -, rest, -, rfl⟩ | ⟨-, -, r, rest, -, rfl⟩ |
    ⟨-, -, w, cuts, rest, i, hin, hw, hexec⟩ := step_cases s t hstep
  · simp [State.tickDue, hinactive] at hdue
  · obtain ⟨ht, hkept⟩ := hstill (hostResume_frame hres)
    exact ⟨fun hactive => by simp [ht] at hactive, fun _ => hkept⟩
  · obtain ⟨ht, hkept⟩ := hstill s.expireIfRunning_frame
    exact ⟨fun hactive => by simp [ht] at hactive, fun _ => hkept⟩
  · obtain ⟨ht, hkept⟩ := hstill s.expireIfRunning_frame
    exact ⟨fun hactive => by simp [ht] at hactive, fun _ => hkept⟩
  · exact ⟨fun hactive => by simp [hinactive] at hactive, fun _ => ⟨rfl, rfl, rfl, rfl, rfl, rfl, rfl⟩⟩
  · by_cases hbegin : i = .begin
    · subst hbegin
      obtain rfl : (0x1000000000000 : CmdWord) = w := Presented.command.inj (encode_of_decodeCommand hw)
      refine ⟨fun _ => ⟨cuts, rest, hin⟩, fun ht => ?_⟩
      obtain ⟨-, rfl⟩ := (execBegin_eq_next_iff _ t).1 hexec
      cases ht
    · obtain ⟨r, hrefused⟩ := exec_refused_of_inactive (s := { s with inputs := rest, preempt := cuts }) hinactive hbegin
      rw [hrefused] at hexec
      cases hexec

/-! ## The handshake's small operations -/

theorem exec_swapReq_of_active {s : State} (hactive : s.active = true) :
    exec .swapReq s = .next s.undriveRsp.requestSwap :=
  if_pos hactive

/-- Settles O18: `SWAPREQ` is one flag, which the strap opens. -/
theorem swapReqSetsFlag : Obligations.SwapReqSetsFlag := by
  unfold Obligations.SwapReqSetsFlag
  refine ⟨by decide, fun s hinactive => (exec_of_inactive hinactive).2.1, fun s hactive => ?_⟩
  rw [exec_swapReq_of_active hactive, State.requestSwap]
  cases hdbuf : s.straps.dbuf <;> simp [State.undriveRsp, hdbuf]

/-- Settles O21: inside the buffer `BUFRD` is one read, and an operation of one access is not interrupted. -/
theorem bufRdReadsBackBuffer : Obligations.BufRdReadsBackBuffer := by
  unfold Obligations.BufRdReadsBackBuffer
  refine ⟨decodeCommand_bufRd, fun s off href => ?refused, fun s off hactive hoff => exec_bufRd_of_inside hactive hoff⟩
  case refused =>
    cases hactive : s.active with
    | false => exact exec_refused_of_inactive hactive (by simp)
    | true => exact ⟨_, exec_bufRd_of_outside hactive (href.resolve_left (by simp [hactive]))⟩

/-- Settles O23: the byte is read from the buffer and the offset it was written to, since `BUFWR` moves neither role. -/
theorem writeThenReadReturnsValue : Obligations.WriteThenReadReturnsValue := by
  unfold Obligations.WriteThenReadReturnsValue
  intro s t off v hwf0 hwf1 hwrite
  obtain ⟨hactive, hoff, -⟩ := (execBufWr_eq_next_iff off v s t).1 hwrite
  rw [exec_bufWr_of_inside v hactive hoff] at hwrite
  obtain rfl := Host.Outcome.next.inj hwrite
  have hbk : (s.undriveRsp.memWrite s.bk off.toNat v).bk = s.bk := by simp [State.bk]
  have hread : (s.undriveRsp.memWrite s.bk off.toNat v).memRead s.bk off.toNat = v :=
    (s.undriveRsp.memRead_memWrite s.bk off.toNat v (s.wf_fb hwf0 hwf1 s.bk) _ _).trans (if_pos ⟨rfl, rfl⟩)
  refine ⟨_, exec_bufRd_of_inside (by simpa using hactive) (by simpa [State.fbSize] using hoff), ?_, rfl, fun b off' => ?_⟩
  · change (s.undriveRsp.memWrite s.bk off.toNat v).memRead (s.undriveRsp.memWrite s.bk off.toNat v).bk off.toNat = v
    rw [hbk, hread]
  · cases b <;> rfl

/-- Settles O25: without `DBUF` both roles name `FB[0]`, and what the handshake would do is guarded by the strap or by `swapreq`. -/
theorem singleBufferAlias : Obligations.SingleBufferAlias := by
  unfold Obligations.SingleBufferAlias
  intro s h hactive hdbuf
  have hnot : ¬ s.straps.dbuf = true := by simp [hdbuf]
  have hflag : s.swapreq = false := by
    cases hs : s.swapreq with
    | false => rfl
    | true => exact absurd ((h.running hactive).swap_needs_dbuf hs) hnot
  have hstatus : s.statusByte = 0 := s.statusByte_eq_zero.2 hflag
  refine ⟨if_neg hnot, if_neg hnot, hflag, ?swapReq, ?copyFwd, ?rdStat, fun copy between late => if_neg hnot⟩
  case swapReq => exact (exec_swapReq_of_active hactive).trans (congrArg _ (if_neg hnot))
  case copyFwd =>
    refine (execCopyFwd_eq_next_iff s _).2 ⟨hactive, ?_⟩
    rw [State.copyForwardAccesses, if_neg hnot, hostStart]
  case rdStat => rw [exec_rdStat_of_active hactive, hstatus]

/-! ## Rules of the whole machine -/

/-- The interval after some events depends on the interval before them alone. -/
theorem foldl_timer_period {t u : Timer} (h : t.period = u.period) (es : List Event) :
    (es.foldl Timer.apply t).period = (es.foldl Timer.apply u).period := by
  induction es generalizing t u with
  | nil => exact h
  | cons e es ih =>
    refine ih ?_
    cases e <;> simp [Timer.apply, h]

/-- `t` follows `s` by the events `es`: they are what `Out` has more, and they set the pins and the armed interval. -/
def State.FollowsBy (es : List Event) (s t : State) : Prop :=
  t.out = s.out ++ es ∧ t.pins = es.foldl Pins.apply s.pins ∧ t.timer.period = (es.foldl Timer.apply s.timer).period

theorem State.HostFrame.followsBy {s t : State} (h : s.HostFrame t) : s.FollowsBy [] t :=
  ⟨by rw [h.out, List.append_nil], h.pins, h.period⟩

theorem State.sweep_followsBy (s : State) : s.FollowsBy s.sweepEvents s.sweep := by
  refine ⟨s.sweep_out, ?_, ?_⟩
  · simp [State.sweep_eq]
  · rw [State.sweep_eq]
    simp only [State.leaveTick_timer, State.emitAll_timer]
    exact foldl_timer_period (by simp) _

/-- Every accepted operation's effect on the pins and the interval is that of its events (10_state.md R33). -/
theorem exec_followsBy {i : Instr} {s t : State} (h : exec i s = .next t) : ∃ es, s.FollowsBy es t := by
  by_cases hbegin : i = .begin
  · subst hbegin
    obtain ⟨-, ht⟩ := (execBegin_eq_next_iff s t).1 h
    obtain rfl : t = s.begun := ht
    exact ⟨_, s.begun_out, s.begun_pins, by rw [State.begun_timer]; rfl⟩
  by_cases htick : i = .tick
  · subst htick
    obtain ⟨-, -, rfl⟩ := (execTick_eq_next_iff s t).1 h
    exact ⟨_, s.sweep_followsBy⟩
  obtain ⟨-, ⟨-, rfl⟩ | ⟨-, rfl⟩ | ⟨-, rfl⟩ | ⟨-, -, rfl⟩ | ⟨-, rfl⟩⟩ := exec_host_cases h hbegin htick
  · exact ⟨[.tmrStop, .blank true], by simp [State.FollowsBy]⟩
  · exact ⟨[], by simp [State.FollowsBy]⟩
  · exact ⟨[], by simp [State.FollowsBy]⟩
  · exact ⟨[], (hostStart_frame (s.accessesOf i) s).followsBy⟩
  · exact ⟨[], (hostStart_frame (s.accessesOf i) s.undriveRsp).followsBy⟩

/-- Settles O58: an operation follows by its events, every other move by none. -/
theorem outReplaysPins : Obligations.OutReplaysPins := by
  unfold Obligations.OutReplaysPins
  intro s t hstep
  obtain ⟨-, htick⟩ | ⟨-, p, -, hres⟩ | ⟨-, -, -, rfl⟩ | ⟨-, -, rest, -, rfl⟩ | ⟨-, -, r, rest, -, rfl⟩ |
    ⟨-, -, w, cuts, rest, i, -, -, hexec⟩ := step_cases s t hstep
  · exact exec_followsBy (i := .tick) htick
  · exact ⟨[], (hostResume_frame hres).followsBy⟩
  · exact ⟨[], s.expireIfRunning_frame.followsBy⟩
  · exact ⟨[], s.expireIfRunning_frame.followsBy⟩
  · exact ⟨[], (List.append_nil _).symm, rfl, rfl⟩
  · exact exec_followsBy (s := { s with inputs := rest, preempt := cuts }) hexec

/-- Settles O60: a `TICK` writes no byte, and every other move of an active machine is a host's or from outside. -/
theorem onlyTickMovesCursor : Obligations.OnlyTickMovesCursor := by
  unfold Obligations.OnlyTickMovesCursor
  intro s t hactive hstep
  refine ⟨fun hpending => ?host, fun hpending => ?tick⟩
  case tick =>
    have hdue : s.tickDue = true := Bool.and_eq_true_iff.2 ⟨hactive, hpending⟩
    rw [step_of_due hdue] at hstep
    obtain ⟨-, -, rfl⟩ := (execTick_eq_next_iff s t).1 hstep
    exact ⟨s.sweep_fb0, s.sweep_fb1⟩
  case host =>
    have hkept : ∀ {u : State}, s.HostFrame u →
        u.plane = s.plane ∧ u.row = s.row ∧ u.back = s.back ∧ (s.swapreq = true → u.swapreq = true) := fun hf =>
      ⟨hf.plane, hf.row, hf.back, fun hs => hf.swapreq.trans hs⟩
    obtain ⟨hdue, -⟩ | ⟨-, p, -, hres⟩ | ⟨-, -, -, rfl⟩ | ⟨-, -, rest, -, rfl⟩ | ⟨-, -, r, rest, -, rfl⟩ |
      ⟨-, -, w, cuts, rest, i, -, hw, hexec⟩ := step_cases s t hstep
    · simp [State.tickDue, hpending] at hdue
    · exact hkept (hostResume_frame hres)
    · exact hkept s.expireIfRunning_frame
    · exact hkept (u := s.expireIfRunning) s.expireIfRunning_frame
    · exact ⟨rfl, rfl, rfl, id⟩
    · have hbegin : i ≠ .begin := by
        rintro rfl
        rw [exec_begin_of_active (s := { s with inputs := rest, preempt := cuts }) hactive] at hexec
        cases hexec
      obtain ⟨hplane, hrow, hback, hswap, -⟩ := exec_host_frame hexec hbegin (ne_tick_of_decodeCommand hw)
      exact ⟨hplane, hrow, hback, hswap⟩

end Sys2Proof.Machine

/-! PROOFS. `TICK` as a whole: what it leaves in every register, in the terms of the table of 42_scan_sequencer.md R99, and its timing
figures (42_scan_sequencer.md R94 to R114). -/

namespace Sys2Proof.Machine

/-! ## Step 3 by the table of R99 -/

theorem cursorAfter_plane_lt (n plane row : Nat) : (cursorAfter n plane row).1 < 4 := by
  rw [cursorAfter]
  split
  · simp only; omega
  · split <;> simp

theorem State.atFrameEnd_iff (s : State) : s.atFrameEnd = true ↔ s.plane.toNat = 3 ∧ s.row.toNat + 1 = s.nrows := by
  rw [State.atFrameEnd, Bool.and_eq_true, decide_eq_true_eq, decide_eq_true_eq, ← BitVec.toNat_inj]
  rfl

theorem State.advanceCursor_fb (s : State) : s.advanceCursor.fb = s.fb := by
  funext b
  cases b <;> simp [State.fb]

section Cursor

variable {s : State} (hrow : s.row.toNat < s.nrows)

include hrow

theorem cursorAfter_row_lt : (cursorAfter s.nrows s.plane.toNat s.row.toNat).2 < s.nrows := by
  rw [cursorAfter]
  split
  · exact hrow
  · split
    · assumption
    · exact s.nrows_pos

/-- Step 3 in the table's terms: the cursor of R99, the swap of R100. -/
theorem State.advanceCursor_eq :
    s.advanceCursor = { s with
      plane := BitVec.ofNat 2 (cursorAfter s.nrows s.plane.toNat s.row.toNat).1
      row := BitVec.ofNat 4 (cursorAfter s.nrows s.plane.toNat s.row.toNat).2
      swapreq := s.swapreq && !s.atFrameEnd
      back := s.backAfter } := by
  have hend : s.atFrameEnd = false ↔ ¬ (s.plane.toNat = 3 ∧ s.row.toNat + 1 = s.nrows) := by
    rw [← s.atFrameEnd_iff, Bool.not_eq_true]
  obtain ⟨hp, hc⟩ | ⟨hp, hr, hc⟩ | ⟨hp, hr, hs, hc⟩ | ⟨hp, hr, hs, hc⟩ := s.advanceCursor_cases hrow <;> rw [hc]
  · simp [cursorAfter, hp, State.backAfter, hend.2 (by omega)]
  · simp [cursorAfter, hp, hr, State.backAfter, hend.2 (by omega)]
  · simp [cursorAfter, hp, hr, hs, State.backAfter, s.atFrameEnd_iff.2 ⟨hp, hr⟩]
  · simp [cursorAfter, hp, hr, hs, State.backAfter]

theorem State.advanceCursor_plane_toNat :
    s.advanceCursor.plane.toNat = (cursorAfter s.nrows s.plane.toNat s.row.toNat).1 := by
  rw [State.advanceCursor_eq hrow]
  exact (BitVec.toNat_ofNat ..).trans (Nat.mod_eq_of_lt (cursorAfter_plane_lt ..))

theorem State.advanceCursor_row_toNat :
    s.advanceCursor.row.toNat = (cursorAfter s.nrows s.plane.toNat s.row.toNat).2 := by
  rw [State.advanceCursor_eq hrow]
  exact (BitVec.toNat_ofNat ..).trans (Nat.mod_eq_of_lt ((cursorAfter_row_lt hrow).trans_le s.nrows_le))

/-- The buffer scanned is the front buffer after step 3 (42_scan_sequencer.md R104). -/
theorem State.advanceCursor_fr : s.advanceCursor.fr = s.scanned := by
  rw [State.advanceCursor_eq hrow]
  rfl

/-- Plane 1 comes after plane 0 alone (42_scan_sequencer.md R99). -/
theorem State.advanceCursor_plane_eq_one_iff : s.advanceCursor.plane = 1 ↔ s.plane = 0 := by
  rw [← BitVec.toNat_inj, ← BitVec.toNat_inj, State.advanceCursor_plane_toNat hrow, cursorAfter]
  change _ = 1 ↔ s.plane.toNat = 0
  split
  · simp only; omega
  · split <;> simp <;> omega

theorem State.rowAddressEvents_eq :
    rowAddressEvents s.advanceCursor.plane s.advanceCursor.row =
      if (cursorAfter s.nrows s.plane.toNat s.row.toNat).1 = 1
      then [.addr (BitVec.ofNat 4 (cursorAfter s.nrows s.plane.toNat s.row.toNat).2)] else [] := by
  have hone : s.advanceCursor.plane = 1 ↔ (cursorAfter s.nrows s.plane.toNat s.row.toNat).1 = 1 := by
    rw [← State.advanceCursor_plane_toNat hrow, ← BitVec.toNat_inj]
    rfl
  rw [rowAddressEvents, ← State.advanceCursor_row_toNat hrow, BitVec.ofNat_toNat, BitVec.setWidth_eq]
  simp only [hone]

/-- The events read off the model's six steps are those written out by the spec's (42_scan_sequencer.md R94). -/
theorem State.sweepEvents_eq : s.sweepEvents = s.tickEvents := by
  rw [State.sweepEvents, State.rowAddressEvents_eq hrow, duration_eq, State.advanceCursor_fb, State.advanceCursor_fr hrow,
    State.advanceCursor_plane_toNat hrow, State.advanceCursor_row_toNat hrow]
  simp [State.tickEvents, lineEvents]

end Cursor

/-- A `TICK` is its cursor's move, its outputs and an undriven port (42_scan_sequencer.md R94, 30_encoding.md R62). -/
theorem State.sweep_eq_with_outputs (s : State) :
    s.sweep = { s.advanceCursor with
      pins := s.sweep.pins
      timer := s.sweep.timer
      out := s.out ++ s.sweepEvents
      rsp := Config.undrivenRsp s.undriven
      rspValid := false
      undriven := s.undriven + 1 } := by
  rw [State.sweep_eq, State.emitAll_eq]
  simp [State.leaveTick, State.undriveRsp, State.enterTick]

/-- Step 4 drives the row the tick is in, and only from plane 0 (42_scan_sequencer.md R102). -/
theorem State.sweep_addr_eq {s : State} (hrow : s.row.toNat < s.nrows) :
    (if s.advanceCursor.plane = 1 then s.advanceCursor.row else s.pins.addr) = if s.plane = 0 then s.row else s.pins.addr := by
  by_cases hp : s.advanceCursor.plane = 1
  · rw [if_pos hp, if_pos ((State.advanceCursor_plane_eq_one_iff hrow).1 hp), State.advanceCursor_row_of_plane_one hrow hp]
  · rw [if_neg hp, if_neg (hp ∘ (State.advanceCursor_plane_eq_one_iff hrow).2)]

/-- Settles O42: the six steps as one move, field by field. -/
theorem tickSweepsOneLine : Obligations.TickSweepsOneLine := by
  unfold Obligations.TickSweepsOneLine
  refine ⟨by decide, fun s hactive hpending hrow => ?_⟩
  rw [exec_tick_of_due hactive hpending hrow, State.sweep_eq_with_outputs, State.sweep_pins, State.sweep_timer,
    State.sweep_addr_eq hrow, State.sweepEvents_eq hrow, State.advanceCursor_plane_toNat hrow,
    State.advanceCursor_row_toNat hrow, State.advanceCursor_fb, State.advanceCursor_fr hrow, duration_eq,
    State.advanceCursor_eq hrow]

/-- Settles O43: without its event `TICK` fails its first test, and outside the buffer its second. -/
theorem tickOnlyOnItsEvent : Obligations.TickOnlyOnItsEvent := by
  unfold Obligations.TickOnlyOnItsEvent
  refine ⟨fun s hnot => if_neg fun hdue => hnot (Bool.and_eq_true_iff.1 hdue), fun s hactive hpending hrow => ?_⟩
  exact (if_pos (Bool.and_eq_true_iff.2 ⟨hactive, hpending⟩)).trans (if_neg hrow.not_gt)

/-! ## The swap and the line -/

theorem linesDriven_append (es fs : List Event) : linesDriven (es ++ fs) = linesDriven es ++ linesDriven fs :=
  List.filterMap_append

theorem linesDriven_lineEvents (m : Memory) (plane row : Nat) :
    linesDriven (lineEvents m plane row) = (List.range 32).map (lineAt m plane row) := by
  rw [lineEvents]
  induction List.range 32 with
  | nil => rfl
  | cons col cols ih =>
    rw [List.flatMap_cons, linesDriven_append, ih]
    rfl

/-- Step 6 alone drives the colour lines (42_scan_sequencer.md R104). -/
theorem State.linesDriven_sweepEvents (s : State) :
    linesDriven s.sweepEvents =
      (List.range 32).map (lineAt (s.fb s.advanceCursor.fr) s.advanceCursor.plane.toNat s.advanceCursor.row.toNat) := by
  have haddr : linesDriven (rowAddressEvents s.advanceCursor.plane s.advanceCursor.row) = [] := by
    rw [rowAddressEvents]
    split <;> rfl
  rw [State.sweepEvents, linesDriven_append, linesDriven_append, linesDriven_append, linesDriven_lineEvents, haddr,
    State.advanceCursor_fb]
  rfl

theorem State.sweep_fr (s : State) : s.sweep.fr = s.advanceCursor.fr := by
  simp [State.fr]

/-- Settles O46: the swap is step 3's, and step 6 reads the roles after it. -/
theorem swapOnlyAtFrameBoundary : Obligations.SwapOnlyAtFrameBoundary := by
  unfold Obligations.SwapOnlyAtFrameBoundary
  intro s hactive hpending hrow
  refine ⟨s.sweep, s.sweepEvents, exec_tick_of_due hactive hpending hrow, s.sweep_fb0, s.sweep_fb1, s.sweep_out, ?line, ?swap,
    ?keep⟩
  case line => rw [State.linesDriven_sweepEvents, State.sweep_fr, State.sweep_plane, State.sweep_row]
  all_goals
    rw [State.sweep_back, State.sweep_swapreq, State.advanceCursor_eq hrow]
    simp only [State.backAfter]
  case swap =>
    rintro ⟨hplane, hlast, hs⟩
    have hend : s.atFrameEnd = true := s.atFrameEnd_iff.2 ⟨congrArg BitVec.toNat hplane, hlast⟩
    simp [hend, hs]
  case keep =>
    intro hnot
    cases hend : s.atFrameEnd with
    | false => simp
    | true =>
      obtain ⟨hplane, hlast⟩ := s.atFrameEnd_iff.1 hend
      have hs : s.swapreq = false := by simpa using fun hs => hnot ⟨BitVec.eq_of_toNat_eq hplane, hlast, hs⟩
      simp [hs]

/-! ## What a `TICK` does not read -/

/-- Of the pins and the timer a `TICK` lets nothing through but the row address, where step 4 does not write it. -/
theorem State.sweep_with_outputs (s : State) (p : Pins) (t : Timer) :
    ({ s with pins := p, timer := t } : State).sweep = { s.sweep with
      pins := { s.sweep.pins with addr := if s.advanceCursor.plane = 1 then s.advanceCursor.row else p.addr } } := by
  have hmove := s.advanceCursor_with_outputs p t s.out
  have hevents : ({ s with pins := p, timer := t } : State).sweepEvents = s.sweepEvents := by
    rw [State.sweepEvents, hmove]
    rfl
  rw [State.sweep_eq_with_outputs, hevents, State.sweep_pins, State.sweep_timer, hmove]
  conv_rhs => rw [State.sweep_eq_with_outputs s, State.sweep_pins, State.sweep_timer]
  rfl

/-- Settles O48: the row address is what differs, unless step 4 writes it. -/
theorem tickIgnoresPinsAtEntry : Obligations.TickIgnoresPinsAtEntry := by
  unfold Obligations.TickIgnoresPinsAtEntry
  intro s p d hactive hpending hrow
  refine ⟨s.sweep, _, exec_tick_of_due hactive hpending hrow, exec_tick_of_due hactive hpending hrow, ?_⟩
  rw [State.sweep_with_outputs]
  refine ⟨rfl, fun hplane => ?_⟩
  rw [State.sweep_plane] at hplane
  rw [if_pos hplane]
  have haddr : s.sweep.pins.addr = s.advanceCursor.row := by rw [State.sweep_addr, if_pos hplane]
  rw [← haddr]

/-! ## The timing figures -/

theorem duration_add (p : Straps) (plane : Nat) : duration p plane + p.callOverhead = expirySpacing p plane := by
  have hpos := one_le_duration p plane
  rw [duration_eq] at hpos ⊢
  rw [expirySpacing]
  omega

theorem sum_range_four (f : Nat → Nat) : ((List.range 4).map f).sum = f 0 + f 1 + f 2 + f 3 := by
  simp [List.range_succ, Nat.add_assoc]

theorem rowTicks_eq (p : Straps) : rowTicks p = 15 * p.baseLoopTicks + 26 * p.callOverhead := by
  rw [rowTicks, sum_range_four]
  simp only [duration_eq]
  omega

/-- Settles O49, figure by figure. -/
theorem durationsDouble : Obligations.DurationsDouble := by
  unfold Obligations.DurationsDouble
  intro p
  refine ⟨fun k _ => ?doubling, fun k hk => ⟨one_le_duration p k, duration_lt p hk⟩, rowTicks_eq p, ?frame, duration_add p,
    ?frameSpacing⟩
  case doubling =>
    rw [duration_add, duration_eq, expirySpacing, Nat.pow_succ, Nat.mul_comm (2 ^ k), Nat.mul_assoc]
  case frame => rw [frameTicks, rowTicks_eq]
  case frameSpacing =>
    rw [frameSpacing, sum_range_four, Nat.mul_assoc]
    simp only [expirySpacing]
    congr 1
    omega

end Sys2Proof.Machine

/-! PROOFS. Runs of refresh ticks: the cursor goes round the frame, one interval is armed at each tick, and a swap request is consumed
at the first frame boundary (42_scan_sequencer.md R99 to R101, R111; 20_memory.md R47). -/

namespace Sys2Proof.Machine

/-! ## One expiry and its tick -/

/-- An active machine of the invariant whose timer counts. -/
structure State.Counting (s : State) : Prop where
  inv : s.Inv
  active : s.active = true
  run : s.timer.run = true

/-- One expiry and its `TICK`. -/
def State.refreshed (s : State) : State := s.expire.sweep

theorem State.Counting.row_lt {s : State} (h : s.Counting) : s.row.toNat < s.nrows := (h.inv.running h.active).row_lt

theorem State.Counting.exec_tick {s : State} (h : s.Counting) : exec .tick s.expire = .next s.refreshed :=
  exec_tick_of_due (s := s.expire) h.active rfl h.row_lt

theorem State.Counting.refreshed {s : State} (h : s.Counting) : s.refreshed.Counting where
  inv := (h.inv.expire h.run).sweep h.active
  active := s.expire.sweep_active.trans h.active
  run := by rw [State.refreshed, State.sweep_timer]

theorem State.refreshed_straps (s : State) : s.refreshed.straps = s.straps := s.expire.sweep_straps

theorem State.refreshed_fb (s : State) : s.refreshed.fb = s.fb := s.expire.sweep_fb

theorem State.refreshed_preempt (s : State) : s.refreshed.preempt = s.preempt := s.expire.sweep_preempt

/-- Where in the frame the cursor stands: four planes to a row (42_scan_sequencer.md R99). -/
def State.framePos (s : State) : Nat := 4 * s.row.toNat + s.plane.toNat

/-- The ticks to the next frame boundary, that of the boundary counted. -/
def State.ticksToBoundary (s : State) : Nat := 4 * s.nrows - s.framePos

theorem State.Counting.framePos_lt {s : State} (h : s.Counting) : s.framePos < 4 * s.nrows := by
  have hrow := h.row_lt
  have hplane := s.plane.isLt
  rw [State.framePos]
  omega

theorem State.atFrameEnd_iff_framePos {s : State} (h : s.Counting) : s.atFrameEnd = true ↔ s.framePos + 1 = 4 * s.nrows := by
  have hrow := h.row_lt
  have hplane := s.plane.isLt
  rw [State.atFrameEnd_iff, State.framePos]
  omega

/-- A tick is one place further in the frame (42_scan_sequencer.md R99). -/
theorem State.Counting.refreshed_framePos {s : State} (h : s.Counting) :
    s.refreshed.framePos = (s.framePos + 1) % (4 * s.nrows) := by
  have hrow := h.row_lt
  have hpos := h.framePos_lt
  have hplane := s.plane.isLt
  have hmove : s.refreshed.framePos = 4 * (cursorAfter s.nrows s.plane.toNat s.row.toNat).2 +
      (cursorAfter s.nrows s.plane.toNat s.row.toNat).1 := by
    rw [State.framePos, State.refreshed, State.sweep_plane, State.sweep_row,
      State.advanceCursor_plane_toNat (s := s.expire) hrow, State.advanceCursor_row_toNat (s := s.expire) hrow]
    rfl
  rw [hmove, cursorAfter]
  by_cases hlast : s.framePos + 1 = 4 * s.nrows
  · rw [hlast, Nat.mod_self]
    rw [State.framePos] at hlast
    rw [if_neg (by omega), if_neg (by omega)]
    rfl
  · rw [Nat.mod_eq_of_lt (by omega)]
    rw [State.framePos] at hlast hpos ⊢
    split
    · simp only; omega
    · rw [if_pos (by omega)]
      simp only; omega

theorem State.Counting.refreshed_swap {s : State} (h : s.Counting) :
    s.refreshed.swapreq = (s.swapreq && !s.atFrameEnd) ∧ s.refreshed.back = s.backAfter := by
  have hmove := State.advanceCursor_eq (s := s.expire) h.row_lt
  rw [State.refreshed, State.sweep_swapreq, State.sweep_back, hmove]
  exact ⟨rfl, rfl⟩

theorem armed_append (es fs : List Event) : armed (es ++ fs) = armed es ++ armed fs := List.filterMap_append

theorem armed_lineEvents (m : Memory) (plane row : Nat) : armed (lineEvents m plane row) = [] := by
  rw [armed, List.filterMap_eq_nil_iff]
  intro e he
  obtain ⟨col, -, he⟩ := List.mem_flatMap.1 he
  simp only [List.mem_cons, List.not_mem_nil, or_false] at he
  obtain rfl | rfl | rfl := he <;> rfl

/-- A tick arms one interval, that of the plane at entry (42_scan_sequencer.md R97). -/
theorem State.armed_sweepEvents (s : State) : armed s.sweepEvents = [duration s.straps s.plane.toNat] := by
  have haddr : armed (rowAddressEvents s.advanceCursor.plane s.advanceCursor.row) = [] := by
    rw [rowAddressEvents]
    split <;> rfl
  have hfits : (BitVec.ofNat 16 (duration s.straps s.plane.toNat)).toNat = duration s.straps s.plane.toNat :=
    (BitVec.toNat_ofNat ..).trans (Nat.mod_eq_of_lt (duration_lt s.straps s.plane.isLt))
  rw [State.sweepEvents, armed_append, armed_append, armed_append, armed_lineEvents, haddr]
  simp [armed, hfits]

/-! ## Many -/

/-- Expiries and ticks follow one another without end (60_exceptions.md R141). -/
theorem State.Counting.refresh {s : State} (h : s.Counting) (n : Nat) :
    Machine.refresh n s = .next (State.refreshed^[n] s) ∧ (State.refreshed^[n] s).Counting := by
  induction n generalizing s with
  | zero => exact ⟨rfl, h⟩
  | succ n ih =>
    obtain ⟨hrun, hcounting⟩ := ih h.refreshed
    refine ⟨?_, hcounting⟩
    rw [Machine.refresh, h.exec_tick]
    exact hrun

/-- What no tick writes (42_scan_sequencer.md R94). -/
theorem State.iterate_refreshed_frame (s : State) (n : Nat) :
    (State.refreshed^[n] s).straps = s.straps ∧ (State.refreshed^[n] s).fb = s.fb ∧
      (State.refreshed^[n] s).preempt = s.preempt := by
  induction n with
  | zero => exact ⟨rfl, rfl, rfl⟩
  | succ n ih =>
    obtain ⟨hstraps, hfb, hpreempt⟩ := ih
    rw [Function.iterate_succ_apply']
    exact ⟨(State.refreshed_straps _).trans hstraps, (State.refreshed_fb _).trans hfb, (State.refreshed_preempt _).trans hpreempt⟩

theorem State.iterate_refreshed_nrows (s : State) (n : Nat) : (State.refreshed^[n] s).nrows = s.nrows :=
  State.nrows_congr (s.iterate_refreshed_frame n).1

theorem State.Counting.iterate_framePos {s : State} (h : s.Counting) (n : Nat) :
    (State.refreshed^[n] s).framePos = (s.framePos + n) % (4 * s.nrows) := by
  induction n with
  | zero => exact (Nat.mod_eq_of_lt h.framePos_lt).symm
  | succ n ih =>
    rw [Function.iterate_succ_apply', (h.refresh n).2.refreshed_framePos, ih, State.iterate_refreshed_nrows, Nat.mod_add_mod]
    rfl

/-- Up to the frame boundary a request stands; from there on it is consumed, once (20_memory.md R47). -/
theorem State.Counting.iterate_swap {s : State} (h : s.Counting) (n : Nat) :
    (n < s.ticksToBoundary → (State.refreshed^[n] s).swapreq = s.swapreq ∧ (State.refreshed^[n] s).back = s.back) ∧
      (s.ticksToBoundary ≤ n → (State.refreshed^[n] s).swapreq = false ∧
        (State.refreshed^[n] s).back = if s.swapreq then s.back.other else s.back) := by
  have hpos := h.framePos_lt
  induction n with
  | zero =>
    refine ⟨fun _ => ⟨rfl, rfl⟩, fun hle => ?_⟩
    rw [State.ticksToBoundary] at hle
    omega
  | succ n ih =>
    obtain ⟨hbefore, hafter⟩ := ih
    have hn := (h.refresh n).2
    obtain ⟨hswap, hback⟩ := hn.refreshed_swap
    rw [Function.iterate_succ_apply', hswap, hback, State.backAfter]
    have hend : n < s.ticksToBoundary → ((State.refreshed^[n] s).atFrameEnd = true ↔ n + 1 = s.ticksToBoundary) := by
      intro hlt
      rw [State.ticksToBoundary] at hlt ⊢
      rw [State.atFrameEnd_iff_framePos hn, h.iterate_framePos, State.iterate_refreshed_nrows, Nat.mod_eq_of_lt (by omega)]
      omega
    refine ⟨fun hlt => ?_, fun hle => ?_⟩
    · obtain ⟨hs, hb⟩ := hbefore (by omega)
      have hnot : (State.refreshed^[n] s).atFrameEnd = false := by
        rw [← Bool.not_eq_true, hend (by omega)]
        omega
      simp [hnot, hs, hb]
    · by_cases hlt : n < s.ticksToBoundary
      · obtain ⟨hs, hb⟩ := hbefore hlt
        have hyes : (State.refreshed^[n] s).atFrameEnd = true := (hend hlt).2 (by omega)
        simp [hyes, hs, hb]
      · obtain ⟨hs, hb⟩ := hafter (by omega)
        simp [hs, hb]

/-- The intervals armed are those of the planes in turn, from that of the cursor on. -/
theorem State.Counting.iterate_out {s : State} (h : s.Counting) (n : Nat) :
    ∃ es, (State.refreshed^[n] s).out = s.out ++ es ∧
      armed es = (List.range n).map fun k => duration s.straps ((s.plane.toNat + k) % 4) := by
  induction n with
  | zero => exact ⟨[], (List.append_nil _).symm, rfl⟩
  | succ n ih =>
    obtain ⟨es, hout, harmed⟩ := ih
    have hplane : (State.refreshed^[n] s).plane.toNat = (s.plane.toNat + n) % 4 := by
      have hpos := congrArg (· % 4) (h.iterate_framePos n)
      have hlt := (State.refreshed^[n] s).plane.isLt
      simp only [State.framePos, Nat.mod_mul_right_mod] at hpos
      omega
    refine ⟨es ++ (State.refreshed^[n] s).expire.sweepEvents, ?_, ?_⟩
    · rw [Function.iterate_succ_apply', ← List.append_assoc, ← hout]
      exact State.sweep_out _
    · have hentry : duration (State.refreshed^[n] s).expire.straps (State.refreshed^[n] s).expire.plane.toNat =
          duration s.straps ((s.plane.toNat + n) % 4) := by
        rw [State.expire_straps, State.expire_plane, hplane, (s.iterate_refreshed_frame n).1]
      rw [armed_append, harmed, State.armed_sweepEvents, hentry, List.range_succ, List.map_append]
      rfl

/-- Over each four ticks in a row every plane is entered once. -/
theorem sum_planes (d : Nat → Nat) {p : Nat} (hp : p < 4) (n : Nat) :
    ((List.range (4 * n)).map fun k => d ((p + k) % 4)).sum = n * ((List.range 4).map d).sum := by
  induction n with
  | zero => simp
  | succ n ih =>
    have hsplit : List.range (4 * (n + 1)) = List.range (4 * n) ++ [4 * n, 4 * n + 1, 4 * n + 2, 4 * n + 3] := by
      simp [Nat.mul_add, List.range_succ]
    rw [hsplit, List.map_append, List.sum_append, ih, Nat.add_one_mul n, sum_range_four]
    have hturn : ∀ j, (p + (4 * n + j)) % 4 = (p + j) % 4 := fun j => by omega
    have hfirst : (p + 4 * n) % 4 = p % 4 := hturn 0
    simp only [List.map_cons, List.map_nil, List.sum_cons, List.sum_nil, hturn, hfirst]
    interval_cases p <;> simp <;> omega

/-- Settles O50: a whole frame of ticks is a whole turn of the cursor, and each row arms its four intervals. -/
theorem frameIsFourNRowsTicks : Obligations.FrameIsFourNRowsTicks := by
  unfold Obligations.FrameIsFourNRowsTicks
  intro s hinv hactive hrun
  have h : s.Counting := ⟨hinv, hactive, hrun⟩
  obtain ⟨es, hout, harmed⟩ := h.iterate_out (4 * s.nrows)
  obtain ⟨-, hfb, -⟩ := s.iterate_refreshed_frame (4 * s.nrows)
  have hpos : (State.refreshed^[4 * s.nrows] s).framePos = s.framePos := by
    rw [h.iterate_framePos, Nat.add_mod_right, Nat.mod_eq_of_lt h.framePos_lt]
  have hplane := s.plane.isLt
  have hplane' := (State.refreshed^[4 * s.nrows] s).plane.isLt
  rw [State.framePos, State.framePos] at hpos
  refine ⟨_, es, (h.refresh _).1, BitVec.eq_of_toNat_eq (by omega), BitVec.eq_of_toNat_eq (by omega), congrFun hfb .fb0,
    congrFun hfb .fb1, hout, by simp [harmed], ?_⟩
  rw [harmed, sum_planes _ hplane, ← rowTicks_eq]
  rfl

/-- Settles O51: the request is consumed at the frame boundary, which is at most a frame away. -/
theorem swapConsumedWithinOneFrame : Obligations.SwapConsumedWithinOneFrame := by
  unfold Obligations.SwapConsumedWithinOneFrame
  intro s hinv hactive hrun hswap
  have h : s.Counting := ⟨hinv, hactive, hrun⟩
  obtain ⟨-, hfb, -⟩ := s.iterate_refreshed_frame s.ticksToBoundary
  obtain ⟨hs, hb⟩ := (h.iterate_swap s.ticksToBoundary).2 (Nat.le_refl _)
  rw [if_pos hswap] at hb
  refine ⟨s.ticksToBoundary, _, Nat.sub_le _ _, (h.refresh _).1, hs, hb, congrFun hfb .fb0, congrFun hfb .fb1, ?_⟩
  intro j u hj hu
  obtain rfl := Host.Outcome.next.inj ((h.refresh j).1.symm.trans hu)
  obtain ⟨hs, hb⟩ := (h.iterate_swap j).1 hj
  exact ⟨hs.trans hswap, hb⟩

end Sys2Proof.Machine

/-! PROOFS. `COPYFWD`, and what `SWAPBUFFERS` guarantees with it (43_buffer_control.md R121, R126, R127, R130). -/

namespace Sys2Proof.Machine

/-! ## The copy -/

/-- One byte copied: read, and stored whole. -/
theorem makeAccesses_copyByte (src dst : Buf) (off : Nat) (h : Byte) (s : State) :
    (makeAccesses [.load src off, .store dst off 0 0] h s).2 = s.memWrite dst off (s.memRead src off) := by
  have hbyte : (s.memRead src off &&& ~~~0#8) ||| 0#8 = s.memRead src off := by
    rw [BitVec.or_zero]
    exact BitVec.and_allOnes
  exact congrArg (s.memWrite dst off) hbyte

theorem copyAccesses_succ (src dst : Buf) (n : Nat) :
    copyAccesses src dst (n + 1) = copyAccesses src dst n ++ [.load src n, .store dst n 0 0] := by
  rw [copyAccesses, List.range_succ, List.flatMap_append]
  rfl

/-- A copy between two buffers in canonical form: the first `n` bytes are the source's, every other byte is as before. -/
theorem makeAccesses_copyAccesses {src dst : Buf} (hne : src ≠ dst) (n : Nat) (h : Byte) {s : State}
    (hwf : (s.fb dst).wf = true) :
    ((makeAccesses (copyAccesses src dst n) h s).2.fb dst).wf = true ∧
      ∀ b off, (makeAccesses (copyAccesses src dst n) h s).2.memRead b off =
        if b = dst ∧ off < n then s.memRead src off else s.memRead b off := by
  induction n with
  | zero => exact ⟨hwf, fun b off => by simp [copyAccesses, makeAccesses]⟩
  | succ n ih =>
    obtain ⟨hform, hread⟩ := ih
    rw [copyAccesses_succ, makeAccesses_append, makeAccesses_copyByte]
    refine ⟨?_, fun b off => ?_⟩
    · rw [State.fb_memWrite, if_pos rfl]
      exact Memory.wf_write _ _ _ hform
    · rw [State.memRead_memWrite _ _ _ _ hform, hread src n, hread b off, if_neg fun hsame : src = dst ∧ n < n => hne hsame.1]
      by_cases hlast : off = n
      · subst hlast
        by_cases hb : b = dst <;> simp [hb]
      · have hlt : off < n + 1 ↔ off < n := by omega
        simp [hlast, hlt]

theorem exec_copyFwd_of_active {s : State} (hactive : s.active = true) (hcuts : s.preempt = []) :
    exec .copyFwd s = .next { (makeAccesses s.copyForwardAccesses 0 s.undriveRsp).2 with preempt := [] } := by
  refine (execCopyFwd_eq_next_iff s _).2 ⟨hactive, ?_⟩
  exact (hostStart_of_no_preempt s.copyForwardAccesses s.undriveRsp hcuts).symm

/-- Settles O20: with `DBUF` the accesses are those of the copy between two different buffers, without it there are none. -/
theorem copyFwdCopiesFrontToBack : Obligations.CopyFwdCopiesFrontToBack := by
  unfold Obligations.CopyFwdCopiesFrontToBack
  refine ⟨by decide, fun s hinactive => (exec_of_inactive hinactive).2.2, fun s hactive hcuts hwf0 hwf1 => ?_⟩
  obtain ⟨hctl, hsuspended, -, hinputs, -⟩ := makeAccesses_control s.copyForwardAccesses 0 s.undriveRsp
  refine ⟨_, exec_copyFwd_of_active hactive hcuts, ?control, hsuspended, hinputs, fun hdbuf => ?copied, fun hdbuf => ?uncopied⟩
  case control =>
    obtain ⟨⟩ := hctl
    constructor <;> assumption
  case copied =>
    have hread := (makeAccesses_copyAccesses (State.fr_ne_bk hdbuf) s.fbSize 0 (s := s.undriveRsp) (s.wf_fb hwf0 hwf1 s.bk)).2
    rw [State.copyForwardAccesses, if_pos hdbuf]
    exact ⟨fun off hoff => (hread s.bk off).trans (if_pos ⟨rfl, hoff⟩), fun b off hother => (hread b off).trans (if_neg hother)⟩
  case uncopied =>
    rw [State.copyForwardAccesses, if_neg (by simp [hdbuf])]
    exact fun b off => rfl

/-- From a state of the invariant a copy makes the back buffer the front buffer, as data. -/
theorem exec_copyFwd_fb {s : State} (h : s.Inv) (hactive : s.active = true) (hdbuf : s.straps.dbuf = true)
    (hcuts : s.preempt = []) :
    ∃ t, exec .copyFwd s = .next t ∧ s.SameControl t ∧ t.fb s.fr = s.fb s.fr ∧ t.fb s.bk = s.fb s.fr := by
  obtain ⟨-, -, hcopy⟩ := copyFwdCopiesFrontToBack
  obtain ⟨t, hexec, hctl, hsuspended, -, hcopied, -⟩ := hcopy s hactive hcuts h.buffers.fb0_wf h.buffers.fb1_wf
  have hfit : t.BuffersFit := by
    obtain rfl := Host.Outcome.next.inj ((exec_copyFwd_of_active hactive hcuts).symm.trans hexec)
    obtain ⟨⟩ := h.undriveRsp.buffers.makeAccesses s.copyForwardAccesses 0 (State.accessesOf_exist (s := s) hexec)
    constructor <;> assumption
  have hfront := hostNeverWritesFrontBuffer s t .copyFwd hdbuf (by simp) hexec
  have hsize : t.fbSize = s.fbSize := State.fbSize_congr hctl.straps
  have hwithin : ∀ {u : State}, u.BuffersFit → ∀ b, (u.fb b).within u.fbSize = true := fun hu b => by
    cases b
    · exact hu.fb0_within
    · exact hu.fb1_within
  refine ⟨t, hexec, hctl, hfront, Memory.ext _ _ (t.wf_fb hfit.fb0_wf hfit.fb1_wf _)
    (s.wf_fb h.buffers.fb0_wf h.buffers.fb1_wf _) fun off => ?_⟩
  by_cases hoff : off < s.fbSize
  · exact (hcopied hdbuf).1 off hoff
  · rw [Memory.read_of_within _ _ (hwithin hfit s.bk) off (by omega),
      Memory.read_of_within _ _ (hwithin h.buffers s.fr) off (by omega)]

/-! ## The swap -/

/-- Before the boundary each tick is one step closer to it. -/
theorem State.Counting.iterate_ticksToBoundary {s : State} (h : s.Counting) {n : Nat} (hn : n < s.ticksToBoundary) :
    (State.refreshed^[n] s).ticksToBoundary = s.ticksToBoundary - n := by
  rw [State.ticksToBoundary] at hn ⊢
  rw [State.ticksToBoundary, h.iterate_framePos, State.iterate_refreshed_nrows, Nat.mod_eq_of_lt (by omega)]
  omega

theorem Buf.other_other (b : Buf) : b.other.other = b := by
  cases b <;> rfl

/-- When `back` is toggled the roles are exchanged (10_state.md R19). -/
theorem roles_of_swap {s t : State} (hdbuf : s.straps.dbuf = true) (hstraps : t.straps = s.straps) (hback : t.back = s.back.other) :
    t.fr = s.bk ∧ t.bk = s.fr := by
  simp [State.fr, State.bk, hstraps, hdbuf, hback, Buf.other_other]

/-- What stands while the host waits for a swap: the machine counts, no byte has moved, and the roles tell whether the request
stands (20_memory.md R47). -/
structure Waiting (s t : State) : Prop where
  counting : t.Counting
  straps : t.straps = s.straps
  fb : t.fb = s.fb
  preempt : t.preempt = []
  back : t.back = if t.swapreq then s.back else s.back.other

/-- Ticks keep waiting; they end the request exactly when the frame boundary is among them. -/
theorem Waiting.iterate {s t : State} (h : Waiting s t) (n : Nat) : Waiting s (State.refreshed^[n] t) := by
  obtain ⟨hstraps, hfb, hpreempt⟩ := t.iterate_refreshed_frame n
  refine ⟨(h.counting.refresh n).2, hstraps.trans h.straps, hfb.trans h.fb, hpreempt.trans h.preempt, ?_⟩
  obtain ⟨hbefore, hafter⟩ := h.counting.iterate_swap n
  have hback := h.back
  by_cases hn : n < t.ticksToBoundary
  · obtain ⟨hs, hb⟩ := hbefore hn
    rw [hs, hb, hback]
  · obtain ⟨hs, hb⟩ := hafter (Nat.le_of_not_lt hn)
    rw [hs, hb]
    cases hreq : t.swapreq <;> simp [hreq] at hback ⊢ <;> simp [hback]

theorem Waiting.respond {s t : State} (h : Waiting s t) (v : Byte) : Waiting s (t.respond v) :=
  ⟨⟨h.counting.inv.respond v, h.counting.active, h.counting.run⟩, h.straps, (by funext b; cases b <;> rfl : _ = t.fb).trans h.fb,
    h.preempt, h.back⟩

/-- `SWAPREQ` starts a wait: the request stands. -/
theorem waiting_of_swapReq {s : State} (h : s.Counting) (hdbuf : s.straps.dbuf = true) (hcuts : s.preempt = []) :
    Waiting s s.undriveRsp.requestSwap ∧ s.undriveRsp.requestSwap.swapreq = true := by
  have hreq : s.undriveRsp.requestSwap.swapreq = true := by simp [hdbuf]
  refine ⟨⟨⟨h.inv.undriveRsp.requestSwap, by simpa using h.active, by simpa using h.run⟩, by simp, ?_, by simpa using hcuts, ?_⟩, hreq⟩
  · funext b
    cases b <;> simp [State.fb]
  · rw [hreq]
    simp

/-- Once the request is gone the roles have changed and both buffers are as they were (43_buffer_control.md R127). -/
theorem Waiting.swapped {s t : State} (h : Waiting s t) (hdbuf : s.straps.dbuf = true) (hs : t.swapreq = false) :
    t.back = s.back.other ∧ t.fr = s.bk ∧ t.bk = s.fr ∧ t.fb t.fr = s.fb s.bk ∧ t.fb t.bk = s.fb s.fr := by
  have hback : t.back = s.back.other := by
    have hb := h.back
    rwa [hs, if_neg (by simp)] at hb
  obtain ⟨hfr, hbk⟩ := roles_of_swap hdbuf h.straps hback
  exact ⟨hback, hfr, hbk, by rw [hfr, h.fb], by rw [hbk, h.fb]⟩

/-- The copy after the swap: both buffers hold what the host drew (43_buffer_control.md R130). -/
theorem Waiting.copied {s t : State} (h : Waiting s t) (hdbuf : s.straps.dbuf = true) (hs : t.swapreq = false) :
    ∃ u, exec .copyFwd t = .next u ∧ t.SameControl u ∧ u.fr = t.fr ∧ u.fb u.fr = s.fb s.bk ∧ u.fb u.bk = s.fb s.bk := by
  obtain ⟨-, -, -, hfront, -⟩ := h.swapped hdbuf hs
  obtain ⟨u, hexec, hctl, hufr, hubk⟩ := exec_copyFwd_fb h.counting.inv h.counting.active
    ((congrArg Straps.dbuf h.straps).trans hdbuf) h.preempt
  have hfr : u.fr = t.fr := by simp [State.fr, hctl.straps, hctl.back]
  have hbk : u.bk = t.bk := by simp [State.bk, hctl.straps, hctl.back]
  exact ⟨u, hexec, hctl, hfr, by rw [hfr, hufr, hfront], by rw [hbk, hubk, hfront]⟩

/-! ## The wait -/

/-- The host's wait, from a state in which it waits: it is over exactly when the frame boundary was among its ticks. -/
theorem Waiting.awaitSwap {s t : State} (h : Waiting s t) (hreq : t.swapreq = true) (between : List Nat) :
    ∃ w, Machine.awaitSwap between t = .next w ∧ Waiting s w.state ∧ (t.ticksToBoundary ≤ between.sum → w.done = true) ∧
      (w.done = false → w.state.swapreq = true) := by
  induction between generalizing t with
  | nil =>
    refine ⟨⟨t, false⟩, rfl, h, fun hle => ?_, fun _ => hreq⟩
    have hpos := h.counting.framePos_lt
    rw [State.ticksToBoundary, List.sum_nil] at hle
    omega
  | cons n rest ih =>
    have hn := h.iterate n
    have hstep : Machine.awaitSwap (n :: rest) t =
        if (State.refreshed^[n] t).statusByte = 0x00 then
          .next ⟨(State.refreshed^[n] t).respond (State.refreshed^[n] t).statusByte, true⟩
        else Machine.awaitSwap rest ((State.refreshed^[n] t).respond (State.refreshed^[n] t).statusByte) := by
      rw [Machine.awaitSwap, (h.counting.refresh n).1, andThen_next, exec_rdStat_of_active hn.counting.active, andThen_next]
      rfl
    rw [hstep]
    split
    · exact ⟨_, rfl, hn.respond _, fun _ => rfl, fun hd => absurd hd (by simp)⟩
    · rename_i hstatus
      have hstands : (State.refreshed^[n] t).swapreq = true := by
        rw [State.statusByte_eq_zero] at hstatus
        simpa using hstatus
      obtain ⟨w, hw, hwaiting, hover, hnotOver⟩ := ih (hn.respond _) hstands
      refine ⟨w, hw, hwaiting, fun hle => hover ?_, hnotOver⟩
      have hbefore : n < t.ticksToBoundary := by
        by_contra hge
        have hgone := ((h.counting.iterate_swap n).2 (Nat.le_of_not_lt hge)).1
        simp [hgone] at hstands
      have hleft : ((State.refreshed^[n] t).respond (State.refreshed^[n] t).statusByte).ticksToBoundary =
          t.ticksToBoundary - n := h.counting.iterate_ticksToBoundary hbefore
      rw [hleft]
      rw [List.sum_cons] at hle
      omega

/-- The whole expansion from a counting machine with `DBUF`: `SWAPREQ`, a wait, and with `copy` and the wait over, more ticks and the
copy (43_buffer_control.md R126). -/
theorem State.Counting.swapBuffers {s : State} (h : s.Counting) (hdbuf : s.straps.dbuf = true) (hcuts : s.preempt = [])
    (copy : Bool) (between : List Nat) (late : Nat) :
    ∃ w, Machine.swapBuffers copy between late s = .next w ∧ (4 * s.nrows ≤ between.sum → w.done = true) ∧
      (w.done = true → between ≠ []) ∧
      ((w.done && copy) = false → Waiting s w.state ∧ (w.done = false → w.state.swapreq = true) ∧
        (w.done = true → w.state.swapreq = false ∧ w.state.rsp = 0x00 ∧ w.state.rspValid = true)) ∧
      ((w.done && copy) = true → ∃ t, Waiting s t ∧ t.swapreq = false ∧ exec .copyFwd t = .next w.state) := by
  obtain ⟨hwaiting, hreq⟩ := waiting_of_swapReq h hdbuf hcuts
  obtain ⟨w, hawait, hstate, hover, hnotOver⟩ := hwaiting.awaitSwap hreq between
  have hframe : 4 * s.nrows ≤ between.sum → w.done = true := fun hsum => hover <| by
    have hnrows : s.undriveRsp.requestSwap.nrows = s.nrows := State.nrows_congr hwaiting.straps
    rw [State.ticksToBoundary, hnrows]
    omega
  have hrun : Machine.swapBuffers copy between late s =
      if (w.done && copy) = true then
        andThen (Machine.refresh late w.state) fun s2 => andThen (exec .copyFwd s2) fun s3 => .next ⟨s3, true⟩
      else .next w := by
    rw [Machine.swapBuffers, if_pos hdbuf, exec_swapReq_of_active h.active, andThen_next, hawait, andThen_next]
  by_cases hcopy : (w.done && copy) = true
  · obtain ⟨hdone, -⟩ := Bool.and_eq_true_iff.1 hcopy
    obtain ⟨hread, hs, -⟩ := awaitSwap_done between _ w hawait hdone
    have hlate := hstate.iterate late
    have hgone : (State.refreshed^[late] w.state).swapreq = false := by
      obtain ⟨hbefore, hafter⟩ := hstate.counting.iterate_swap late
      by_cases hlt : late < w.state.ticksToBoundary
      · exact (hbefore hlt).1.trans hs
      · exact (hafter (Nat.le_of_not_lt hlt)).1
    obtain ⟨u, hexec, -⟩ := hlate.copied hdbuf hgone
    refine ⟨⟨u, true⟩, ?_, fun _ => rfl, fun _ => hread, fun hnot => ?_, fun _ => ⟨_, hlate, hgone, hexec⟩⟩
    · rw [hrun, if_pos hcopy, (hstate.counting.refresh late).1, andThen_next, hexec, andThen_next]
    · exact absurd ((Bool.and_eq_true_iff.1 hcopy).2.symm.trans hnot) (by decide)
  · have hended := awaitSwap_done between _ w hawait
    exact ⟨w, hrun.trans (if_neg hcopy), hframe, fun hdone => (hended hdone).1,
      fun _ => ⟨hstate, hnotOver, fun hdone => (hended hdone).2⟩, fun hyes => absurd hyes hcopy⟩

/-- Settles O52: operation by operation the roles are exchanged and then copied; the expansion does the same after its wait. -/
theorem swapBuffersGuarantee : Obligations.SwapBuffersGuarantee := by
  unfold Obligations.SwapBuffersGuarantee
  refine ⟨?parts, ?expansion⟩
  case parts =>
    intro s s1 hinv hactive hrun hdbuf hcuts hreq n t hrefresh hs
    obtain rfl := Host.Outcome.next.inj ((exec_swapReq_of_active hactive).symm.trans hreq)
    obtain ⟨hwaiting, -⟩ := waiting_of_swapReq ⟨hinv, hactive, hrun⟩ hdbuf hcuts
    obtain rfl := Host.Outcome.next.inj ((hwaiting.counting.refresh n).1.symm.trans hrefresh)
    obtain ⟨hback, -, -, hfr, hbk⟩ := (hwaiting.iterate n).swapped hdbuf hs
    obtain ⟨u, hexec, -, hcopied⟩ := (hwaiting.iterate n).copied hdbuf hs
    exact ⟨hback, hfr, hbk, u, hexec, hcopied⟩
  case expansion =>
    intro s copy between late hinv hactive hrun hdbuf hcuts
    obtain ⟨w, hw, hover, hread, hplain, hcopied⟩ :=
      State.Counting.swapBuffers ⟨hinv, hactive, hrun⟩ hdbuf hcuts copy between late
    refine ⟨w, hw, hover, fun hdone => ⟨hread hdone, ?done⟩, fun hnot => ?waiting⟩
    case waiting =>
      obtain ⟨hwaiting, hreq, -⟩ := hplain (by simp [hnot])
      have hback := hwaiting.back
      rw [hreq hnot, if_pos rfl] at hback
      exact ⟨hreq hnot, hback, congrFun hwaiting.fb .fb0, congrFun hwaiting.fb .fb1⟩
    case done =>
      cases copy with
      | false =>
        obtain ⟨hwaiting, -, hended⟩ := hplain (Bool.and_false _)
        obtain ⟨hs, hrsp, hvalid⟩ := hended hdone
        obtain ⟨hback, -, -, hfr, hbk⟩ := hwaiting.swapped hdbuf hs
        exact ⟨hback, hs, hfr, hbk, fun _ => ⟨hrsp, hvalid⟩⟩
      | true =>
        obtain ⟨t, hwaiting, hs, hexec⟩ := hcopied (by simp [hdone])
        obtain ⟨hback, -⟩ := hwaiting.swapped hdbuf hs
        obtain ⟨u, hexec', hctl, -, hfr, hbk⟩ := hwaiting.copied hdbuf hs
        obtain rfl := Host.Outcome.next.inj (hexec'.symm.trans hexec)
        exact ⟨hctl.back.trans hback, hctl.swapreq.trans hs, hfr, hbk, fun hno => absurd hno (by decide)⟩

end Sys2Proof.Machine

/-! PROOFS. `SETPIXEL` and `FILLSCREEN` on the bytes: the accesses of a pixel replace its twelve bits in three bytes and nothing else
(41_pixel_writer.md R79, R84 to R91). -/

namespace Sys2Proof.Machine

/-! ## Byte updates -/

/-- The bytes after `(v & ~mask) | set` at one offset (41_pixel_writer.md R86). -/
def patchByte (off : Nat) (mask set : Byte) (f : Nat → Byte) : Nat → Byte :=
  Function.update f off ((f off &&& ~~~mask) ||| set)

theorem patchByte_of_ne {off off' : Nat} (h : off' ≠ off) (mask set : Byte) (f : Nat → Byte) :
    patchByte off mask set f off' = f off' :=
  Function.update_of_ne h _ _

theorem getLsbD_patchByte (off off' : Nat) (mask set : Byte) (f : Nat → Byte) (i : Nat) :
    (patchByte off mask set f off').getLsbD i =
      if off' = off then ((f off').getLsbD i && !mask.getLsbD i) || set.getLsbD i else (f off').getLsbD i := by
  by_cases h : off' = off
  · subst h
    rw [if_pos rfl, patchByte, Function.update_self, BitVec.getLsbD_or, BitVec.getLsbD_and, BitVec.getLsbD_not]
    by_cases hi : i < 8
    · simp [hi]
    · simp [BitVec.getLsbD_of_ge _ i (Nat.le_of_not_lt hi)]
  · rw [if_neg h, patchByte_of_ne h]

theorem getLsbD_bitAt (b : Bool) {n : Nat} (hn : n < 8) (i : Nat) : (bitAt b n).getLsbD i = (decide (i = n) && b) := by
  rw [bitAt, BitVec.getLsbD_shiftLeft, BitVec.getLsbD_setWidth, BitVec.getLsbD_ofBool]
  by_cases h : i = n
  · subst h
    simp [hn]
  · by_cases hlt : i < n
    · simp [h, hlt]
    · have hpos : i - n ≠ 0 := by omega
      simp [h, hpos]

/-- The accesses, made in any state with the buffer in canonical form, keep the form and rewrite the bytes by `F`. -/
def Rewrites (b : Buf) (F : (Nat → Byte) → Nat → Byte) (as : List Access) : Prop :=
  ∀ (h : Byte) (s : State), (s.fb b).wf = true →
    ((makeAccesses as h s).2.fb b).wf = true ∧ (makeAccesses as h s).2.memRead b = F (s.memRead b)

theorem Rewrites.append {b : Buf} {F G : (Nat → Byte) → Nat → Byte} {as bs : List Access} (ha : Rewrites b F as)
    (hb : Rewrites b G bs) : Rewrites b (fun f => G (F f)) (as ++ bs) := by
  intro h s hwf
  obtain ⟨hform, hbytes⟩ := ha h s hwf
  rw [makeAccesses_append]
  obtain ⟨hform', hbytes'⟩ := hb (makeAccesses as h s).1 (makeAccesses as h s).2 hform
  exact ⟨hform', hbytes'.trans (congrArg G hbytes)⟩

theorem State.memRead_memWrite_same {s : State} {b : Buf} (hwf : (s.fb b).wf = true) (off : Nat) (v : Byte) :
    (s.memWrite b off v).memRead b = Function.update (s.memRead b) off v := by
  funext off'
  rw [State.memRead_memWrite s b off v hwf, Function.update_apply]
  simp

theorem State.wf_memWrite {s : State} {b : Buf} (hwf : (s.fb b).wf = true) (off : Nat) (v : Byte) :
    ((s.memWrite b off v).fb b).wf = true := by
  rw [State.fb_memWrite, if_pos rfl]
  exact Memory.wf_write _ _ _ hwf

theorem rewrites_rmw (b : Buf) (off : Nat) (mask set : Byte) : Rewrites b (patchByte off mask set) (rmw b off mask set) := by
  intro h s hwf
  rw [makeAccesses_rmw]
  exact ⟨State.wf_memWrite hwf _ _, State.memRead_memWrite_same hwf _ _⟩

/-- The cleared byte in between does not last (41_pixel_writer.md R86). -/
theorem rewrites_rmw2 (b : Buf) (off : Nat) (mask set : Byte) : Rewrites b (patchByte off mask set) (rmw2 b off mask set) := by
  intro h s hwf
  have hcleared := State.wf_memWrite hwf off ((s.memRead b off &&& ~~~mask) ||| 0)
  rw [makeAccesses_rmw2]
  refine ⟨State.wf_memWrite hcleared _ _, ?_⟩
  rw [State.memRead_memWrite_same hcleared, State.memRead_memWrite_same hwf, Function.update_idem]
  rfl

/-! ## The bytes of a pixel -/

/-- The bits of one plane, 1 to 3, above the two that plane 0 uses (40_address_decoder.md R72). -/
def planeSet (half : HalfPanel) (v : Rgb4) (p : Nat) : Byte :=
  match half with
  | .top => bitAt (v.r.getLsbD p) 2 ||| bitAt (v.g.getLsbD p) 3 ||| bitAt (v.b.getLsbD p) 4
  | .bottom => bitAt (v.r.getLsbD p) 5 ||| bitAt (v.g.getLsbD p) 6 ||| bitAt (v.b.getLsbD p) 7

/-- The two updates of plane 0 (41_pixel_writer.md R86). -/
def planeZeroPatch (half : HalfPanel) (base : Nat) (v : Rgb4) (f : Nat → Byte) : Nat → Byte :=
  match half with
  | .top => patchByte (base + 32) 0x01 (bitAt (v.b.getLsbD 0) 0)
      (patchByte (base + 64) 0x03 (bitAt (v.r.getLsbD 0) 0 ||| bitAt (v.g.getLsbD 0) 1) f)
  | .bottom => patchByte (base + 32) 0x02 (bitAt (v.r.getLsbD 0) 1)
      (patchByte base 0x03 (bitAt (v.g.getLsbD 0) 0 ||| bitAt (v.b.getLsbD 0) 1) f)

/-- The field of planes 1 to 3 (40_address_decoder.md R72). -/
def planeMask : HalfPanel → Byte
  | .top => 0x1C
  | .bottom => 0xE0

/-- What a pixel's accesses make of the bytes. -/
def pixelPatch (half : HalfPanel) (base : Nat) (v : Rgb4) (f : Nat → Byte) : Nat → Byte :=
  patchByte (base + 64) (planeMask half) (planeSet half v 3) (patchByte (base + 32) (planeMask half) (planeSet half v 2)
    (patchByte base (planeMask half) (planeSet half v 1) (planeZeroPatch half base v f)))

/-- The updates of planes 1 to 3, one byte after another (41_pixel_writer.md R86). -/
theorem rewrites_planes (b : Buf) (base : Nat) (mask : Byte) (set : Nat → Byte) :
    Rewrites b
      (fun f => patchByte (base + 64) mask (set 3) (patchByte (base + 32) mask (set 2) (patchByte base mask (set 1) f)))
      ([1, 2, 3].flatMap fun p => rmw b (base + (p - 1) * 32) mask (set p)) := by
  have hplanes : ([1, 2, 3].flatMap fun p => rmw b (base + (p - 1) * 32) mask (set p)) =
      (rmw b base mask (set 1) ++ rmw b (base + 32) mask (set 2)) ++ rmw b (base + 64) mask (set 3) := by
    simp [List.flatMap_cons]
  rw [hplanes]
  exact ((rewrites_rmw b base mask (set 1)).append (rewrites_rmw b (base + 32) mask (set 2))).append
    (rewrites_rmw b (base + 64) mask (set 3))

theorem rewrites_writeTop (b : Buf) (base : Nat) (v : Rgb4) : Rewrites b (pixelPatch .top base v) (writeTop b base v) := by
  have hzero := (rewrites_rmw2 b (base + 64) 0x03 (bitAt (v.r.getLsbD 0) 0 ||| bitAt (v.g.getLsbD 0) 1)).append
    (rewrites_rmw2 b (base + 32) 0x01 (bitAt (v.b.getLsbD 0) 0))
  exact hzero.append (rewrites_planes b base (planeMask .top) (planeSet .top v))

theorem rewrites_writeBottom (b : Buf) (base : Nat) (v : Rgb4) : Rewrites b (pixelPatch .bottom base v) (writeBottom b base v) := by
  have hzero := (rewrites_rmw2 b base 0x03 (bitAt (v.g.getLsbD 0) 0 ||| bitAt (v.b.getLsbD 0) 1)).append
    (rewrites_rmw2 b (base + 32) 0x02 (bitAt (v.r.getLsbD 0) 1))
  exact hzero.append (rewrites_planes b base (planeMask .bottom) (planeSet .bottom v))

theorem rewrites_pixelAccesses (n : RowCount) (b : Buf) (px py : Nat) (v : Rgb4) :
    Rewrites b (pixelPatch (halfOf n py) (fbBase (scanRowOf n py) px) v) (pixelAccesses n b px py v) := by
  rw [pixelAccesses]
  cases halfOf n py with
  | top => exact rewrites_writeTop b _ v
  | bottom => exact rewrites_writeBottom b _ v

theorem pixelPatch_of_ne (half : HalfPanel) {base off : Nat} (v : Rgb4) (f : Nat → Byte)
    (h : ∀ step, step < 3 → off ≠ base + 32 * step) : pixelPatch half base v f off = f off := by
  have h0 : off ≠ base := h 0 (by decide)
  have h1 : off ≠ base + 32 := h 1 (by decide)
  have h2 : off ≠ base + 64 := h 2 (by decide)
  rw [pixelPatch, patchByte_of_ne h2, patchByte_of_ne h1, patchByte_of_ne h0]
  cases half with
  | top => exact (patchByte_of_ne h1 ..).trans (patchByte_of_ne h2 ..)
  | bottom => exact (patchByte_of_ne h1 ..).trans (patchByte_of_ne h0 ..)

/-- Bit by bit: a bit that holds a pixel bit of this half takes its value, a bit of the partner pixel keeps its own
(40_address_decoder.md R72 to R74). The twenty-four bits of the three bytes are gone through one by one. -/
theorem getLsbD_pixelPatch (half : HalfPanel) (base : Nat) (v : Rgb4) (f : Nat → Byte) {step i : Nat} (hstep : step < 3)
    (hi : i < 8) :
    (pixelPatch half base v f (base + 32 * step)).getLsbD i =
      if (pixelBitAt step i).1 = half then (v.get (pixelBitAt step i).2.2).getLsbD (pixelBitAt step i).2.1
      else (f (base + 32 * step)).getLsbD i := by
  cases half
  all_goals
    simp only [pixelPatch, planeZeroPatch, planeMask, planeSet, getLsbD_patchByte, BitVec.getLsbD_or, getLsbD_bitAt, Nat.reduceLT]
    interval_cases step <;> interval_cases i <;> simp [pixelBitAt, Rgb4.get]

/-- Written twice, a pixel holds the second value (41_pixel_writer.md R89). -/
theorem pixelPatch_pixelPatch (half : HalfPanel) (base : Nat) (v w : Rgb4) (f : Nat → Byte) :
    pixelPatch half base w (pixelPatch half base v f) = pixelPatch half base w f := by
  funext off
  by_cases h : ∃ step, step < 3 ∧ off = base + 32 * step
  · obtain ⟨step, hstep, rfl⟩ := h
    apply BitVec.eq_of_getLsbD_eq
    intro i hi
    rw [getLsbD_pixelPatch half base w _ hstep hi, getLsbD_pixelPatch half base w _ hstep hi,
      getLsbD_pixelPatch half base v _ hstep hi]
    split <;> rfl
  · have hout : ∀ step, step < 3 → off ≠ base + 32 * step := fun step hstep hoff => h ⟨step, hstep, hoff⟩
    rw [pixelPatch_of_ne half w _ hout, pixelPatch_of_ne half v f hout, pixelPatch_of_ne half w f hout]

/-- Each of a pixel's bits is found at the place the decoder gives it (40_address_decoder.md R76). -/
theorem getLsbD_pixelPatch_fbAddr (half : HalfPanel) (row col : Nat) (v : Rgb4) (f : Nat → Byte) {p : Nat} (hp : p < 4)
    (ch : Channel) :
    (pixelPatch half (fbBase row col) v f (fbAddr half row col p ch).1).getLsbD (fbAddr half row col p ch).2 =
      (v.get ch).getLsbD p := by
  obtain ⟨hstep, hbit⟩ := planePlace_lt half hp ch
  rw [fbAddr_eq, getLsbD_pixelPatch half _ v f hstep hbit, pixelBitAt_planePlace half hp ch, if_pos rfl]

/-- Every bit that is not at such a place is kept. -/
theorem getLsbD_pixelPatch_of_not_place (half : HalfPanel) (row col : Nat) (v : Rgb4) (f : Nat → Byte) {off i : Nat}
    (h : ¬ ∃ p ch, p < 4 ∧ fbAddr half row col p ch = (off, i)) :
    (pixelPatch half (fbBase row col) v f off).getLsbD i = (f off).getLsbD i := by
  by_cases hi : i < 8
  · by_cases hoff : ∃ step, step < 3 ∧ off = fbBase row col + 32 * step
    · obtain ⟨step, hstep, rfl⟩ := hoff
      obtain ⟨hp, hplace⟩ := planePlace_pixelBitAt hstep hi
      rw [getLsbD_pixelPatch half _ v f hstep hi, if_neg]
      rintro rfl
      exact h ⟨_, _, hp, by rw [fbAddr_eq, hplace]⟩
    · rw [pixelPatch_of_ne half v f fun step hstep heq => hoff ⟨step, hstep, heq⟩]
  · rw [BitVec.getLsbD_of_ge _ i (Nat.le_of_not_lt hi), BitVec.getLsbD_of_ge _ i (Nat.le_of_not_lt hi)]

/-! ## A pixel written -/

/-- What an uninterrupted in-range `SETPIXEL` leaves: the pixel at `(px, py)` of the back buffer holds `v`, and nothing but its bits, the
response port and the schedule has changed (41_pixel_writer.md R79, R88). -/
structure PixelWritten (px py : Nat) (v : Rgb4) (s t : State) : Prop where
  control : s.SameControl t
  suspended : t.suspended = s.suspended
  inputs : t.inputs = s.inputs
  preempt : t.preempt = []
  other : ∀ b, b ≠ s.bk → t.fb b = s.fb b
  form : (t.fb s.bk).wf = true
  bytes : t.memRead s.bk =
    pixelPatch (halfOf s.straps.nrows py) (fbBase (scanRowOf s.straps.nrows py) px) v (s.memRead s.bk)

theorem exec_setPixel_of_inBounds {s : State} {x y : Half} (c : Half) (hactive : s.active = true) (hcuts : s.preempt = [])
    (hwf : (s.fb s.bk).wf = true) (hin : inBounds s.straps.nrows s.rot x y = true) :
    ∃ t, exec (.setPixel x y c) s = .next t ∧
      PixelWritten (rotate s.straps.nrows s.rot x.toNat y.toNat).1 (rotate s.straps.nrows s.rot x.toNat y.toNat).2
        (truncateColor c) s t := by
  have hexec := (execSetPixel_eq_next_iff x y c s _).2 ⟨hactive, rfl⟩
  rw [hostStart_of_no_preempt _ s.undriveRsp hcuts] at hexec
  obtain ⟨hctl, hsuspended, -, hinputs, -⟩ := makeAccesses_control (s.setPixelAccesses x y c) 0 s.undriveRsp
  have hpixel : s.setPixelAccesses x y c = pixelAccesses s.straps.nrows s.bk
      (rotate s.straps.nrows s.rot x.toNat y.toNat).1 (rotate s.straps.nrows s.rot x.toNat y.toNat).2 (truncateColor c) :=
    if_pos hin
  obtain ⟨hform, hbytes⟩ := rewrites_pixelAccesses s.straps.nrows s.bk (rotate s.straps.nrows s.rot x.toNat y.toNat).1
    (rotate s.straps.nrows s.rot x.toNat y.toNat).2 (truncateColor c) 0 s.undriveRsp hwf
  rw [← hpixel] at hform hbytes
  refine ⟨_, hexec, ?control, hsuspended, hinputs, rfl, fun b hb => ?other, hform, hbytes⟩
  case control =>
    obtain ⟨⟩ := hctl
    constructor <;> assumption
  case other => exact makeAccesses_fb_of_storesIn hb (fun a ha => s.accessesOf_storesIn (i := .setPixel x y c) ha) 0 s.undriveRsp

section Written

variable {px py : Nat} {v : Rgb4} {s t : State}

theorem PixelWritten.bk (h : PixelWritten px py v s t) : t.bk = s.bk := by
  simp [State.bk, h.control.straps, h.control.back]

theorem PixelWritten.memRead_other (h : PixelWritten px py v s t) {b : Buf} (hb : b ≠ s.bk) (off : Nat) :
    t.memRead b off = s.memRead b off := by
  rw [State.memRead, h.other b hb, State.memRead]

/-- Every bit of either buffer but the pixel's twelve reads as before. -/
theorem PixelWritten.getLsbD_kept (h : PixelWritten px py v s t) {b : Buf} {off i : Nat}
    (hplace : ¬ (b = s.bk ∧ ∃ p ch, p < 4 ∧
      fbAddr (halfOf s.straps.nrows py) (scanRowOf s.straps.nrows py) px p ch = (off, i))) :
    (t.memRead b off).getLsbD i = (s.memRead b off).getLsbD i := by
  by_cases hb : b = s.bk
  · subst hb
    rw [h.bytes]
    exact getLsbD_pixelPatch_of_not_place _ _ _ v _ fun hex => hplace ⟨rfl, hex⟩
  · rw [h.memRead_other hb]

theorem PixelWritten.memRead_kept (h : PixelWritten px py v s t) {b : Buf} {off : Nat}
    (hoff : ¬ (b = s.bk ∧ ∃ step, step < 3 ∧ off = fbBase (scanRowOf s.straps.nrows py) px + 32 * step)) :
    t.memRead b off = s.memRead b off := by
  by_cases hb : b = s.bk
  · subst hb
    rw [h.bytes]
    exact pixelPatch_of_ne _ v _ fun step hstep heq => hoff ⟨rfl, step, hstep, heq⟩
  · exact h.memRead_other hb off

end Written

/-! ## Unpacking -/

/-- Bit `p` of an unpacked channel is the stored bit of plane `p` (40_address_decoder.md R76). -/
theorem getLsbD_unpackChannel (n : RowCount) (m : Memory) (px py : Nat) (ch : Channel) {p : Nat} (hp : p < 4) :
    (unpackChannel n m px py ch).getLsbD p =
      (m.read (fbAddr (halfOf n py) (scanRowOf n py) px p ch).1).getLsbD (fbAddr (halfOf n py) (scanRowOf n py) px p ch).2 := by
  have hjoin : unpackChannel n m px py ch = unpackChannel.stored n m px py ch 3 ++ unpackChannel.stored n m px py ch 2 ++
      unpackChannel.stored n m px py ch 1 ++ unpackChannel.stored n m px py ch 0 := rfl
  have hstored : ∀ p, (unpackChannel.stored n m px py ch p).getLsbD 0 =
      (m.read (fbAddr (halfOf n py) (scanRowOf n py) px p ch).1).getLsbD (fbAddr (halfOf n py) (scanRowOf n py) px p ch).2 :=
    fun p => by simp [unpackChannel.stored]
  rw [← hstored, hjoin, BitVec.getLsbD_append, BitVec.getLsbD_append, BitVec.getLsbD_append]
  interval_cases p <;> rfl

theorem unpack_get (n : RowCount) (m : Memory) (px py : Nat) (ch : Channel) :
    (unpack n m px py).get ch = unpackChannel n m px py ch := by
  cases ch <;> rfl

theorem Rgb4.ext_get {v w : Rgb4} (h : ∀ ch p, p < 4 → (v.get ch).getLsbD p = (w.get ch).getLsbD p) : v = w := by
  have hch : ∀ ch, v.get ch = w.get ch := fun ch => BitVec.eq_of_getLsbD_eq fun p hp => h ch p hp
  obtain ⟨r, g, b⟩ := v
  obtain ⟨r', g', b'⟩ := w
  obtain rfl : r = r' := hch .red
  obtain rfl : g = g' := hch .green
  obtain rfl : b = b' := hch .blue
  rfl

/-- The round trip, and its frame: the written pixel unpacks to the value written, every other to what it held (41_pixel_writer.md R88). -/
theorem PixelWritten.unpack {px py : Nat} {v : Rgb4} {s t : State} (h : PixelWritten px py v s t) :
    Machine.unpack s.straps.nrows (t.fb s.bk) px py = v := by
  refine Rgb4.ext_get fun ch p hp => ?_
  rw [unpack_get, getLsbD_unpackChannel _ _ _ _ _ hp]
  change (t.memRead s.bk _).getLsbD _ = _
  rw [h.bytes, getLsbD_pixelPatch_fbAddr _ _ _ _ _ hp]

theorem PixelWritten.unpack_of_ne {px py px' py' : Nat} {v : Rgb4} {s t : State} (h : PixelWritten px py v s t) (hpx : px < 32)
    (hpx' : px' < 32) (hne : (px', py') ≠ (px, py)) :
    Machine.unpack s.straps.nrows (t.fb s.bk) px' py' = Machine.unpack s.straps.nrows (s.fb s.bk) px' py' := by
  refine Rgb4.ext_get fun ch p hp => ?_
  rw [unpack_get, unpack_get, getLsbD_unpackChannel _ _ _ _ _ hp, getLsbD_unpackChannel _ _ _ _ _ hp]
  refine h.getLsbD_kept ?_
  rintro ⟨-, p', ch', hp', haddr⟩
  obtain ⟨hhalf, hrow, rfl, -, -⟩ := fbAddr_inj hpx hpx' hp' hp haddr
  exact hne (by rw [physicalRow_inj hhalf hrow])

/-! ## `SETPIXEL` -/

/-- Settles O34. -/
theorem setPixelRoundTrip : Obligations.SetPixelRoundTrip := by
  unfold Obligations.SetPixelRoundTrip
  intro s x y c px py hactive hcuts hwf0 hwf1 hin hrot
  obtain ⟨t, hexec, h⟩ := exec_setPixel_of_inBounds c hactive hcuts (s.wf_fb hwf0 hwf1 s.bk) hin
  rw [hrot] at h
  exact ⟨t, hexec, h.unpack, fun b off bit => h.getLsbD_kept⟩

/-- An uninterrupted `SETPIXEL` keeps the buffers' form. -/
theorem exec_setPixel_fit {s t : State} {x y c : Half} (hcuts : s.preempt = []) (hfit : s.BuffersFit)
    (hexec : exec (.setPixel x y c) s = .next t) : t.BuffersFit := by
  have hexist := State.accessesOf_exist (s := s) hexec
  obtain ⟨-, rfl⟩ := (execSetPixel_eq_next_iff x y c s t).1 hexec
  rw [hostStart_of_no_preempt _ s.undriveRsp hcuts]
  have hfit' : s.undriveRsp.BuffersFit := ⟨hfit.1, hfit.2, hfit.3, hfit.4, hfit.5⟩
  obtain ⟨⟩ := hfit'.makeAccesses (s.setPixelAccesses x y c) 0 hexist
  constructor <;> assumption

/-- Settles O35: the three steps from the base. -/
theorem setPixelTouchesThreeBytes : Obligations.SetPixelTouchesThreeBytes := by
  unfold Obligations.SetPixelTouchesThreeBytes
  rintro s x y c base hactive hcuts hfit hin rfl
  obtain ⟨t, hexec, h⟩ := exec_setPixel_of_inBounds c hactive hcuts (s.wf_fb hfit.fb0_wf hfit.fb1_wf s.bk) hin
  refine ⟨t, hexec, fun b off hother => h.memRead_kept ?_, h.control, h.suspended, h.inputs, exec_setPixel_fit hcuts hfit hexec⟩
  rintro ⟨hb, step, hstep, rfl⟩
  refine hother ⟨hb, ?_⟩
  interval_cases step <;> simp

/-- A channel's field lies inside the mask of the bits that are kept (30_encoding.md R52). -/
theorem colourField_of_masked {c c' : Half} (h : c &&& 0xF79E = c' &&& 0xF79E) {lo : Nat}
    (hmask : (0xF79E : Half).extractLsb' lo 4 = BitVec.allOnes 4) : c.extractLsb' lo 4 = c'.extractLsb' lo 4 := by
  have hfield := congrArg (BitVec.extractLsb' lo 4) h
  rwa [BitVec.extractLsb'_and, BitVec.extractLsb'_and, hmask, BitVec.and_allOnes, BitVec.and_allOnes] at hfield

/-- Settles O36: a `SETPIXEL` sees its colour through the truncation alone. -/
theorem discardedColourBitsHaveNoEffect : Obligations.DiscardedColourBitsHaveNoEffect := by
  unfold Obligations.DiscardedColourBitsHaveNoEffect
  intro s x y c c' h
  have hcolour : truncateColor c = truncateColor c' := by
    rw [truncateColor, truncateColor, colourField_of_masked h (lo := 12) (by decide),
      colourField_of_masked h (lo := 7) (by decide), colourField_of_masked h (lo := 1) (by decide)]
  rw [exec_setPixel, exec_setPixel, execSetPixel, execSetPixel, State.setPixelAccesses, State.setPixelAccesses, hcolour]

theorem State.fb_ext {s t : State} (h : ∀ b, s.fb b = t.fb b) : s.fb0 = t.fb0 ∧ s.fb1 = t.fb1 := ⟨h .fb0, h .fb1⟩

/-- Settles O37: out of range neither write touches a byte; in range the second patch hides the first. -/
theorem lastPixelWriteWins : Obligations.LastPixelWriteWins := by
  unfold Obligations.LastPixelWriteWins
  intro s t x y c c' hfit hcuts hfirst
  obtain ⟨hactive, -⟩ := (execSetPixel_eq_next_iff x y c s t).1 hfirst
  have hwf := s.wf_fb hfit.fb0_wf hfit.fb1_wf s.bk
  cases hin : inBounds s.straps.nrows s.rot x y with
  | false =>
    obtain rfl := Host.Outcome.next.inj ((exec_setPixel_of_outOfBounds c hactive hin).symm.trans hfirst)
    exact ⟨_, _, exec_setPixel_of_outOfBounds c' hactive hin, exec_setPixel_of_outOfBounds c' hactive hin, rfl, rfl⟩
  | true =>
    obtain ⟨t', hexec, ht⟩ := exec_setPixel_of_inBounds c hactive hcuts hwf hin
    obtain rfl := Host.Outcome.next.inj (hexec.symm.trans hfirst)
    have hin' : inBounds t'.straps.nrows t'.rot x y = true := by rw [ht.control.straps, ht.control.rot, hin]
    obtain ⟨u, hu, hwu⟩ := exec_setPixel_of_inBounds c' (ht.control.active.trans hactive) ht.preempt (by rw [ht.bk]; exact ht.form) hin'
    obtain ⟨v, hv, hwv⟩ := exec_setPixel_of_inBounds c' hactive hcuts hwf hin
    refine ⟨u, v, hu, hv, State.fb_ext fun b => ?_⟩
    by_cases hb : b = s.bk
    · subst hb
      have hform := hwu.form
      have hbytes := hwu.bytes
      rw [ht.bk] at hform hbytes
      refine Memory.ext _ _ hform hwv.form fun off => congrFun (?_ : u.memRead s.bk = v.memRead s.bk) off
      rw [hbytes, hwv.bytes, ht.control.straps, ht.control.rot, ht.bytes, pixelPatch_pixelPatch]
    · rw [hwu.other b (by rwa [ht.bk]), ht.other b hb, hwv.other b hb]

end Sys2Proof.Machine

/-! PROOFS. `FILLSCREEN` by its expansion: the coordinates of the logical extent, each in range, name every pixel of the panel
(41_pixel_writer.md R83, R90, R91). -/

namespace Sys2Proof.Machine

/-! ## The coordinates of the extent -/

/-- The coordinates `FILLSCREEN` goes through, `y` outer, `x` inner (41_pixel_writer.md R90). -/
def fillCoords (n : RowCount) (rot : BitVec 2) : List (Half × Half) :=
  (List.range (logicalExtent n rot).2).flatMap fun y =>
    (List.range (logicalExtent n rot).1).map fun x => (BitVec.ofNat 16 x, BitVec.ofNat 16 y)

theorem fillScreen_eq (n : RowCount) (rot : BitVec 2) (c : Half) :
    fillScreen n rot c = (fillCoords n rot).map fun a => .setPixel a.1 a.2 c := by
  rw [fillScreen, fillCoords, List.map_flatMap]
  simp only [List.map_map]
  rfl

theorem logicalExtent_le (n : RowCount) (rot : BitVec 2) : (logicalExtent n rot).1 ≤ 32 ∧ (logicalExtent n rot).2 ≤ 32 := by
  have hn : 2 * n.toNat ≤ 32 := by cases n <;> decide
  obtain h | h := rot_upright_or_turned rot
  · rw [logicalExtent_of_upright n h]
    exact ⟨Nat.le_refl _, hn⟩
  · rw [logicalExtent_of_turned n h]
    exact ⟨hn, Nat.le_refl _⟩

theorem toInt_ofNat_of_small {x : Nat} (hx : x < 32) : (BitVec.ofNat 16 x).toInt = x := by
  rw [BitVec.toInt_eq_toNat_cond, BitVec.toNat_ofNat, Nat.mod_eq_of_lt (by omega), if_pos (by omega)]

theorem toNat_ofNat_of_small {x : Nat} (hx : x < 32) : (BitVec.ofNat 16 x).toNat = x := by
  rw [BitVec.toNat_ofNat, Nat.mod_eq_of_lt (by omega)]

theorem inBounds_of_mem_fillCoords {n : RowCount} {rot : BitVec 2} {a : Half × Half} (h : a ∈ fillCoords n rot) :
    inBounds n rot a.1 a.2 = true := by
  obtain ⟨y, hy, h⟩ := List.mem_flatMap.1 h
  obtain ⟨x, hx, rfl⟩ := List.mem_map.1 h
  rw [List.mem_range] at hx hy
  obtain ⟨hw, hh⟩ := logicalExtent_le n rot
  rw [inBounds, decide_eq_true_eq, toInt_ofNat_of_small (by omega), toInt_ofNat_of_small (by omega)]
  omega

/-- Every pixel of the panel is named by some of the coordinates, whatever `ROT` is (41_pixel_writer.md R83). -/
theorem exists_mem_fillCoords (n : RowCount) (rot : BitVec 2) {px py : Nat} (hpx : px < 32) (hpy : py < 2 * n.toNat) :
    ∃ a ∈ fillCoords n rot, rotate n rot a.1.toNat a.2.toNat = (px, py) := by
  obtain ⟨hx, hy, hrot⟩ := rotate_unrotate n rot hpx hpy
  obtain ⟨hw, hh⟩ := logicalExtent_le n rot
  refine ⟨(BitVec.ofNat 16 (unrotate n rot px py).1, BitVec.ofNat 16 (unrotate n rot px py).2), ?_, ?_⟩
  · exact List.mem_flatMap.2 ⟨_, List.mem_range.2 hy, List.mem_map.2 ⟨_, List.mem_range.2 hx, rfl⟩⟩
  · rw [toNat_ofNat_of_small (by omega), toNat_ofNat_of_small (by omega), hrot]

/-! ## Pixel after pixel -/

/-- What some in-range `SETPIXEL`s of one colour leave: the pixels they name hold the colour, those that held it still do. -/
structure PixelsFilled (coords : List (Half × Half)) (v : Rgb4) (s t : State) : Prop where
  control : s.SameControl t
  fit : t.BuffersFit
  other : ∀ b, b ≠ s.bk → t.fb b = s.fb b
  named : ∀ a ∈ coords, unpack s.straps.nrows (t.fb s.bk) (rotate s.straps.nrows s.rot a.1.toNat a.2.toNat).1
    (rotate s.straps.nrows s.rot a.1.toNat a.2.toNat).2 = v
  kept : ∀ px py, px < 32 → unpack s.straps.nrows (s.fb s.bk) px py = v → unpack s.straps.nrows (t.fb s.bk) px py = v

theorem execAll_setPixels (c : Half) (coords : List (Half × Half)) {s : State} (hactive : s.active = true)
    (hcuts : s.preempt = []) (hfit : s.BuffersFit) (hin : ∀ a ∈ coords, inBounds s.straps.nrows s.rot a.1 a.2 = true) :
    ∃ t, execAll (coords.map fun a => .setPixel a.1 a.2 c) s = .next t ∧ PixelsFilled coords (truncateColor c) s t := by
  induction coords generalizing s with
  | nil =>
    exact ⟨s, rfl, .refl s, hfit, fun _ _ => rfl, fun a ha => absurd ha List.not_mem_nil, fun _ _ _ h => h⟩
  | cons a coords ih =>
    have hina := hin a List.mem_cons_self
    obtain ⟨hpx, -⟩ := rotate_lt s.straps.nrows s.rot (lt_of_inBounds hina).1 (lt_of_inBounds hina).2
    obtain ⟨u, hexec, hu⟩ :=
      exec_setPixel_of_inBounds c hactive hcuts (s.wf_fb hfit.fb0_wf hfit.fb1_wf s.bk) hina
    have hrot : u.rot = s.rot := hu.control.rot
    have hstraps : u.straps = s.straps := hu.control.straps
    obtain ⟨t, hrest, ht⟩ := ih (hu.control.active.trans hactive) hu.preempt (exec_setPixel_fit hcuts hfit hexec)
      (fun a' ha' => by rw [hstraps, hrot]; exact hin a' (List.mem_cons_of_mem _ ha'))
    obtain ⟨hctl, hfit', hother, hnamed, hkept⟩ := ht
    rw [hu.bk] at hother hnamed hkept
    rw [hstraps] at hnamed hkept
    rw [hrot] at hnamed
    refine ⟨t, ?run, hu.control.trans hctl, hfit', fun b hb => (hother b hb).trans (hu.other b hb), ?named, ?kept⟩
    case run => rw [List.map_cons, execAll, hexec]; exact hrest
    case named =>
      intro a' ha'
      obtain rfl | ha' := List.mem_cons.1 ha'
      · exact hkept _ _ hpx hu.unpack
      · exact hnamed a' ha'
    case kept =>
      intro px py hpx' hv
      refine hkept px py hpx' ?_
      by_cases hsame : (px, py) = ((rotate s.straps.nrows s.rot a.1.toNat a.2.toNat).1,
          (rotate s.straps.nrows s.rot a.1.toNat a.2.toNat).2)
      · obtain ⟨rfl, rfl⟩ := Prod.mk.inj hsame
        exact hu.unpack
      · rw [hu.unpack_of_ne hpx hpx' hsame, hv]

/-- Settles O38: the expansion names every pixel, and a pixel once written keeps the colour. -/
theorem fillScreenSetsEveryPixel : Obligations.FillScreenSetsEveryPixel := by
  unfold Obligations.FillScreenSetsEveryPixel
  intro s c hactive hcuts hfit
  obtain ⟨t, hexec, h⟩ := execAll_setPixels c (fillCoords s.straps.nrows s.rot) hactive hcuts hfit
    (fun a ha => inBounds_of_mem_fillCoords ha)
  refine ⟨t, by rw [fillScreen_eq]; exact hexec, h.control, fun px py hpx hpy => ?_, h.other⟩
  obtain ⟨a, ha, hrot⟩ := exists_mem_fillCoords s.straps.nrows s.rot hpx hpy
  have hnamed := h.named a ha
  rwa [hrot] at hnamed

/-! ## Constant fills -/

/-- When every pixel holds a value with all bits equal, so does every byte (41_pixel_writer.md R91). -/
theorem getLsbD_of_all_pixels {n : RowCount} {m : Memory} {v : Rgb4} {bit : Bool}
    (hv : ∀ ch p, p < 4 → (v.get ch).getLsbD p = bit) (h : ∀ px py, px < 32 → py < 2 * n.toNat → unpack n m px py = v)
    {off i : Nat} (hoff : off < n.fbSize) (hi : i < 8) : (m.read off).getLsbD i = bit := by
  obtain ⟨half, row, col, p, ch, hrow, hcol, hp, haddr⟩ := exists_fbAddr_eq n hoff hi
  obtain ⟨py, hpy, rfl, rfl⟩ := exists_physicalRow n half hrow
  have hstored := getLsbD_unpackChannel n m col py ch hp
  rw [haddr, ← unpack_get, h col py hcol hpy, hv ch p hp] at hstored
  exact hstored.symm

/-- Settles O39: every bit of every byte belongs to a pixel, and black and white have one bit value each. -/
theorem fillScreenFastPath : Obligations.FillScreenFastPath := by
  unfold Obligations.FillScreenFastPath
  intro s hactive hcuts hfit
  have hfill := fun c => fillScreenSetsEveryPixel s c hactive hcuts hfit
  refine ⟨?black, ?white⟩
  case black =>
    obtain ⟨t, hexec, -, hpixels, -⟩ := hfill 0x0000
    have hblack : ∀ ch p, p < 4 → ((truncateColor 0x0000).get ch).getLsbD p = false := by
      intro ch
      cases ch <;> decide
    exact ⟨t, hexec, fun off hoff => BitVec.eq_of_getLsbD_eq fun i hi =>
      (getLsbD_of_all_pixels hblack hpixels hoff hi).trans BitVec.getLsbD_zero.symm⟩
  case white =>
    obtain ⟨t, hexec, -, hpixels, -⟩ := hfill 0xFFFF
    have hwhite : ∀ ch p, p < 4 → ((truncateColor 0xFFFF).get ch).getLsbD p = true := by
      intro ch
      cases ch <;> decide
    have hones : ∀ i, i < 8 → (0xFF#8).getLsbD i = true := by decide
    exact ⟨t, hexec, fun off hoff => BitVec.eq_of_getLsbD_eq fun i hi =>
      (getLsbD_of_all_pixels hwhite hpixels hoff hi).trans (hones i hi).symm⟩

end Sys2Proof.Machine

/-! PROOFS. The interrupt inside a host operation: where it suspends, and that the operation, once resumed, ends with the bytes it would
have left uninterrupted (20_memory.md R44; 41_pixel_writer.md R87; 60_exceptions.md R136 to R138). -/

namespace Sys2Proof.Machine

/-! ## Where an expiry falls -/

/-- A cut that falls inside the run suspends it there: the accesses before it are made, the rest is kept (log entry 7). -/
theorem hostRun_cut {as : List Access} {k : Nat} (hk : k < as.length) (ks : List Nat) (h : Byte) {s : State}
    (hrun : s.timer.run = true) :
    hostRun as (k :: ks) h s = { (makeAccesses (as.take k) h s).2.expire with
      suspended := some ⟨(makeAccesses (as.take k) h s).1, as.drop k⟩, preempt := ks } := by
  induction k generalizing as h s with
  | zero =>
    cases as with
    | nil => exact absurd hk (by simp)
    | cons a as => exact if_pos hrun
  | succ k ih =>
    cases as with
    | nil => exact absurd hk (by simp)
    | cons a as =>
      have htimer : (a.after s h).timer.run = true := by rw [(a.after_control s h).1.timer]; exact hrun
      exact ih (Nat.lt_of_succ_lt_succ hk) (a.held s h) htimer

theorem length_pixelAccesses (n : RowCount) (b : Buf) (px py : Nat) (v : Rgb4) : (pixelAccesses n b px py v).length = 12 := by
  rw [pixelAccesses]
  cases halfOf n py <;> rfl

theorem length_setPixelAccesses {s : State} {x y : Half} (c : Half) (hin : inBounds s.straps.nrows s.rot x y = true) :
    (s.setPixelAccesses x y c).length = 12 := by
  rw [State.setPixelAccesses, if_pos hin, length_pixelAccesses]

/-- Settles O40: of twelve accesses the first is made at once and `k` more before the expiry. -/
theorem expirySuspendsSetPixel : Obligations.ExpirySuspendsSetPixel := by
  unfold Obligations.ExpirySuspendsSetPixel
  intro s x y c k ks hactive hrun hin hcuts hk
  have hlen := length_setPixelAccesses c hin
  have hexec := (execSetPixel_eq_next_iff x y c s _).2 ⟨hactive, rfl⟩
  cases has : s.setPixelAccesses x y c with
  | nil => simp [has] at hlen
  | cons a rest =>
    have hk' : k < rest.length := by
      rw [has, List.length_cons] at hlen
      omega
    have htimer : (a.after s.undriveRsp 0).timer.run = true := by
      rw [(a.after_control s.undriveRsp 0).1.timer]
      exact hrun
    have hstart : hostStart (s.setPixelAccesses x y c) s.undriveRsp =
        hostRun rest (k :: ks) (a.held s.undriveRsp 0) (a.after s.undriveRsp 0) := by
      rw [has, ← hcuts]
      rfl
    rw [hstart, hostRun_cut hk' ks _ htimer] at hexec
    have hctl := (a.after_control s.undriveRsp 0).1.trans
      (makeAccesses_control (rest.take k) (a.held s.undriveRsp 0) (a.after s.undriveRsp 0)).1
    refine ⟨_, _, hexec, rfl, rfl, ?_, hctl.active, hctl.plane, hctl.row, hctl.swapreq, hctl.back, hctl.pins, hctl.out, ?_⟩
    · exact congrArg (fun t : Timer => { t with run := false, pending := true }) hctl.timer
    · exact step_of_due (Bool.and_eq_true_iff.2 ⟨hctl.active.trans hactive, rfl⟩)

/-! ## What is still to come of the memory -/

/-- The accesses read and write bytes alone: from equal bytes they leave equal bytes, and the host holds the same. -/
theorem makeAccesses_fb_congr {s t : State} (hfb : s.fb = t.fb) (as : List Access) (h : Byte) :
    (makeAccesses as h s).1 = (makeAccesses as h t).1 ∧ (makeAccesses as h s).2.fb = (makeAccesses as h t).2.fb := by
  induction as generalizing h s t with
  | nil => exact ⟨rfl, hfb⟩
  | cons a as ih =>
    have hread : ∀ b off, s.memRead b off = t.memRead b off := fun b off => by rw [State.memRead, hfb, State.memRead]
    have hheld : a.held s h = a.held t h := by
      cases a with
      | load b off => exact hread b off
      | store | respond => rfl
    have hafter : (a.after s h).fb = (a.after t h).fb := by
      cases a with
      | load b off => exact hfb
      | store b off mask set =>
        funext b'
        exact (s.fb_memWrite ..).trans ((by rw [hfb]) : _ = _) |>.trans (t.fb_memWrite ..).symm
      | respond b off =>
        funext b'
        have hs : (s.respond (s.memRead b off)).fb b' = s.fb b' := by cases b' <;> rfl
        have ht : (t.respond (t.memRead b off)).fb b' = t.fb b' := by cases b' <;> rfl
        exact hs.trans ((congrFun hfb b').trans ht.symm)
    have hstep := ih hafter (a.held s h)
    rw [makeAccesses, makeAccesses, ← hheld]
    exact hstep

/-- The bytes the machine will hold once a suspended operation, if any, is complete. -/
def State.finalFb (s : State) : Buf → Memory :=
  match s.suspended with
  | none => s.fb
  | some p => (makeAccesses p.todo p.held s).2.fb

theorem State.finalFb_of_free {s : State} (h : s.suspended = none) : s.finalFb = s.fb := by
  rw [State.finalFb, h]

theorem State.finalFb_of_suspended {s : State} {p : Progress} (h : s.suspended = some p) :
    s.finalFb = (makeAccesses p.todo p.held s).2.fb := by
  rw [State.finalFb, h]

theorem State.finalFb_congr {s t : State} (hsuspended : t.suspended = s.suspended) (hfb : t.fb = s.fb) : t.finalFb = s.finalFb := by
  cases h : s.suspended with
  | none => rw [State.finalFb_of_free h, State.finalFb_of_free (hsuspended.trans h), hfb]
  | some p =>
    rw [State.finalFb_of_suspended h, State.finalFb_of_suspended (hsuspended.trans h)]
    exact (makeAccesses_fb_congr hfb _ _).2

/-- However a run is cut, the bytes to come are those of all its accesses. -/
theorem hostRun_finalFb (as : List Access) (cuts : List Nat) (h : Byte) {s : State} (hfree : s.suspended = none) :
    (hostRun as cuts h s).finalFb = (makeAccesses as h s).2.fb := by
  obtain hrun | ⟨made, rest, ks, rfl, -, -, hrun⟩ := hostRun_cases as cuts h s <;> rw [hrun]
  · have hfree' : (makeAccesses as h s).2.suspended = none := (makeAccesses_control as h s).2.1.trans hfree
    rw [State.finalFb_of_free (by exact hfree')]
    funext b
    cases b <;> rfl
  · rw [State.finalFb_of_suspended rfl, makeAccesses_append]
    refine (makeAccesses_fb_congr ?_ rest _).2
    funext b
    cases b <;> rfl

theorem hostStart_finalFb (as : List Access) {s : State} (hfree : s.suspended = none) :
    (hostStart as s).finalFb = (makeAccesses as 0 s).2.fb := by
  cases as with
  | nil =>
    rw [State.finalFb_of_free (by exact hfree)]
    funext b
    cases b <;> rfl
  | cons a as =>
    have hfree' : (a.after s 0).suspended = none := (a.after_control s 0).2.1.trans hfree
    exact hostRun_finalFb as s.preempt (a.held s 0) hfree'

/-! ## Steps until the next input -/

/-- A step that takes no input leaves the bytes to come; one that takes an input shortens the script. -/
theorem step_inputs_or_finalFb {s t : State} (hstep : step s = .next t) :
    (t.inputs = s.inputs ∧ t.finalFb = s.finalFb) ∨ t.inputs.length < s.inputs.length := by
  obtain ⟨-, htick⟩ | ⟨-, p, hp, hres⟩ | ⟨-, hfree, hin, rfl⟩ | ⟨-, -, rest, hin, rfl⟩ | ⟨-, -, r, rest, hin, rfl⟩ |
    ⟨-, -, w, cuts, rest, i, hin, hw, hexec⟩ := step_cases s t hstep
  · obtain ⟨-, -, rfl⟩ := (execTick_eq_next_iff s t).1 htick
    exact .inl ⟨s.sweep_inputs, State.finalFb_congr s.sweep_suspended s.sweep_fb⟩
  · have hin := (hostResume_frame hres).inputs
    obtain ⟨-, rfl⟩ := hostResume_cases p s t hres
    refine .inl ⟨hin, ?_⟩
    rw [hostRun_finalFb _ _ _ rfl, State.finalFb_of_suspended hp]
    refine (makeAccesses_fb_congr ?_ _ _).2
    funext b
    cases b <;> rfl
  · refine .inl ⟨s.expireIfRunning_frame.inputs, State.finalFb_congr ?_ ?_⟩
    · rw [State.expireIfRunning]
      split <;> rfl
    · rw [State.expireIfRunning]
      split
      · funext b
        cases b <;> rfl
      · rfl
  · exact .inr (by simp [hin])
  · exact .inr (by simp [hin])
  · have hrest : t.inputs = rest := by
      by_cases hbegin : i = .begin
      · subst hbegin
        obtain ⟨-, ht⟩ := (execBegin_eq_next_iff _ t).1 hexec
        obtain rfl : t = ({ s with inputs := rest, preempt := cuts } : State).begun := ht
        exact (State.begun_frame _).2.2.1
      · exact (exec_host_frame hexec hbegin (ne_tick_of_decodeCommand hw)).2.2.2.2
    exact .inr (by simp [hrest, hin])

/-- Over any number of steps that take no input the bytes to come stay. -/
theorem steps_inputs_or_finalFb (n : Nat) {s t : State} (hsteps : steps n s = .next t) :
    (t.inputs = s.inputs ∧ t.finalFb = s.finalFb) ∨ t.inputs.length < s.inputs.length := by
  induction n generalizing s with
  | zero =>
    obtain rfl := Host.Outcome.next.inj hsteps
    exact .inl ⟨rfl, rfl⟩
  | succ n ih =>
    rw [steps] at hsteps
    cases hs : step s with
    | next u =>
      rw [hs] at hsteps
      obtain ⟨hin, hfb⟩ | hlt := step_inputs_or_finalFb hs
      · obtain ⟨hin', hfb'⟩ | hlt' := ih hsteps
        · exact .inl ⟨hin'.trans hin, hfb'.trans hfb⟩
        · exact .inr (hin ▸ hlt')
      · obtain ⟨hin', -⟩ | hlt' := ih hsteps
        · exact .inr (hin' ▸ hlt)
        · exact .inr (hlt'.trans hlt)
    | fault r => simp [hs] at hsteps
    | refused r => simp [hs] at hsteps

/-! ## Completion -/

/-- A suspension uses up a cut or leaves fewer accesses. -/
theorem hostRun_progress (as : List Access) (cuts : List Nat) (h : Byte) {s : State} (hfree : s.suspended = none) {p : Progress}
    (hp : (hostRun as cuts h s).suspended = some p) :
    p.todo.length + (hostRun as cuts h s).preempt.length < as.length + cuts.length := by
  induction as, cuts, h, s using hostRun.induct with
  | case1 cuts h s => simp [hostRun, hfree] at hp
  | case2 a rest h s ih =>
    have hlt := ih ((a.after_control s h).2.1.trans hfree) hp
    simp only [List.length_cons] at hlt ⊢
    exact hlt.trans (by omega)
  | case3 a rest cuts h s hrun =>
    simp only [hostRun, hrun, if_true, Option.some.injEq] at hp ⊢
    subst hp
    simp
  | case4 a rest cuts h s hrun ih =>
    have hstep : hostRun (a :: rest) (0 :: cuts) h s = hostRun rest cuts (a.held s h) (a.after s h) := by
      simp [hostRun, hrun]
    rw [hstep] at hp ⊢
    have hlt := ih ((a.after_control s h).2.1.trans hfree) hp
    simp only [List.length_cons] at hlt ⊢
    exact hlt.trans (by omega)
  | case5 a rest k cuts h s ih =>
    have hlt := ih ((a.after_control s h).2.1.trans hfree) hp
    simp only [List.length_cons] at hlt ⊢
    exact hlt.trans (by omega)

/-- The suspended operation's remaining work: accesses to make, and expiries that may still fall among them. -/
def State.remaining (s : State) : Nat :=
  match s.suspended with
  | none => 0
  | some p => p.todo.length + s.preempt.length + 1

theorem steps_succ {n : Nat} {s u : State} (h : step s = .next u) : steps (n + 1) s = steps n u := by
  rw [steps, h]

/-- With no `TICK` due a suspended operation goes on, and has less left to do (60_exceptions.md R138). -/
theorem exists_step_resume {s : State} {p : Progress} (h : s.Inv) (hdue : s.tickDue = false) (hp : s.suspended = some p) :
    ∃ u, step s = .next u ∧ u.Inv ∧ u.inputs = s.inputs ∧ u.remaining < s.remaining := by
  have hstep : step s = .next (hostRun p.todo s.preempt p.held { s with suspended := none }) :=
    (step_of_suspended hdue hp).trans (if_pos (h.progress_exists p hp))
  have hs : s.remaining = p.todo.length + s.preempt.length + 1 := by rw [State.remaining, hp]
  refine ⟨_, hstep, step_inv h hstep, (hostRun_frame ..).inputs, ?_⟩
  rw [hs, State.remaining]
  split
  · exact Nat.succ_pos _
  · rename_i q hq
    exact Nat.succ_lt_succ (hostRun_progress p.todo s.preempt p.held rfl hq)

theorem State.Inv.active_of_suspended {s : State} {p : Progress} (h : s.Inv) (hp : s.suspended = some p) : s.active = true := by
  cases hactive : s.active with
  | true => rfl
  | false => simp [(h.stopped hactive).none_suspended] at hp

/-- From the invariant a suspended operation is completed, no input being taken before it is (60_exceptions.md R138). -/
theorem exists_steps_complete {s : State} (h : s.Inv) :
    ∃ n t, steps n s = .next t ∧ t.suspended = none ∧ t.inputs = s.inputs := by
  induction hm : s.remaining using Nat.strong_induction_on generalizing s with
  | _ m ih =>
    cases hp : s.suspended with
    | none => exact ⟨0, s, rfl, hp, rfl⟩
    | some p =>
      have hactive := h.active_of_suspended hp
      cases hdue : s.tickDue with
      | false =>
        obtain ⟨u, hstep, hu, hin, hlt⟩ := exists_step_resume h hdue hp
        obtain ⟨n, t, hsteps, hfree, hin'⟩ := ih u.remaining (hm ▸ hlt) hu rfl
        exact ⟨n + 1, t, (steps_succ hstep).trans hsteps, hfree, hin'.trans hin⟩
      | true =>
        have htick : step s = .next s.sweep := (step_of_due hdue).trans
          (exec_tick_of_due hactive (Bool.and_eq_true_iff.1 hdue).2 (h.running hactive).row_lt)
        have hdone : s.sweep.tickDue = false := by rw [State.tickDue, State.sweep_timer, Bool.and_false]
        have hremaining : s.sweep.remaining = s.remaining := by
          rw [State.remaining, State.sweep_suspended, State.sweep_preempt, State.remaining]
        obtain ⟨u, hstep, hu, hin, hlt⟩ := exists_step_resume (h.sweep hactive) hdone (s.sweep_suspended.trans hp)
        obtain ⟨n, t, hsteps, hfree, hin'⟩ := ih u.remaining (hm ▸ hremaining ▸ hlt) hu rfl
        exact ⟨n + 2, t, (steps_succ htick).trans ((steps_succ hstep).trans hsteps), hfree,
          hin'.trans (hin.trans s.sweep_inputs)⟩

/-! ## The operation as a whole -/

/-- Interrupted or not, the bytes to come after a host operation are those of all its accesses. -/
theorem exec_finalFb {i : Instr} {s t : State} (hfree : s.suspended = none) (hbegin : i ≠ .begin) (htick : i ≠ .tick)
    (h : exec i s = .next t) : t.finalFb = (makeAccesses (s.accessesOf i) 0 s).2.fb := by
  have hport : s.undriveRsp.fb = s.fb := by
    funext b
    cases b <;> rfl
  obtain ⟨-, ⟨rfl, rfl⟩ | ⟨rfl, rfl⟩ | ⟨rfl, rfl⟩ | ⟨-, -, rfl⟩ | ⟨-, rfl⟩⟩ := exec_host_cases h hbegin htick
  · rw [State.finalFb_of_free (by simpa using hfree)]
    funext b
    cases b <;> simp [State.fb, State.accessesOf, makeAccesses]
  · rw [State.finalFb_of_free (by simpa using hfree)]
    funext b
    cases b <;> simp [State.fb, State.accessesOf, makeAccesses]
  · rw [State.finalFb_of_free (by simpa using hfree)]
    funext b
    cases b <;> rfl
  · exact hostStart_finalFb _ hfree
  · exact (hostStart_finalFb _ (s := s.undriveRsp) hfree).trans (makeAccesses_fb_congr hport _ 0).2

/-- With no expiry to come a host operation is complete when it ends. -/
theorem exec_free_of_no_preempt {i : Instr} {s t : State} (hfree : s.suspended = none) (hcuts : s.preempt = [])
    (hbegin : i ≠ .begin) (htick : i ≠ .tick) (h : exec i s = .next t) : t.suspended = none := by
  obtain ⟨-, ⟨-, rfl⟩ | ⟨-, rfl⟩ | ⟨-, rfl⟩ | ⟨-, -, rfl⟩ | ⟨-, rfl⟩⟩ := exec_host_cases h hbegin htick
  · simpa using hfree
  · simpa using hfree
  · exact hfree
  · rw [hostStart_of_no_preempt _ s hcuts]
    exact (makeAccesses_control _ 0 s).2.1.trans hfree
  · rw [hostStart_of_no_preempt _ s.undriveRsp hcuts]
    exact (makeAccesses_control _ 0 s.undriveRsp).2.1.trans hfree

/-- The accesses are computed from the roles, `ROT` and the straps, not from the schedule (log entry 12). -/
theorem State.accessesOf_withPreempt (s : State) (ks : List Nat) (i : Instr) :
    ({ s with preempt := ks } : State).accessesOf i = s.accessesOf i := by
  cases i <;> rfl

/-- Settles O41: the bytes to come are fixed when the operation starts, and nothing but the next input changes them. -/
theorem interruptedOperationSameMemory : Obligations.InterruptedOperationSameMemory := by
  unfold Obligations.InterruptedOperationSameMemory
  intro s a t0 i hinv hactive hpending hfree hwhole hcut
  have hbegin : i ≠ .begin := by
    rintro rfl
    rw [exec_begin_of_active hactive] at hcut
    cases hcut
  have htick : i ≠ .tick := by
    rintro rfl
    obtain ⟨hdue, -⟩ := (execTick_eq_next_iff s t0).1 hcut
    simp [State.tickDue, hpending] at hdue
  have hin : t0.inputs = s.inputs := (exec_host_frame hcut hbegin htick).2.2.2.2
  have hafb : a.fb = t0.finalFb := by
    have hsame : ({ s with preempt := [] } : State).fb = s.fb := by
      funext b
      cases b <;> rfl
    have hafree : a.suspended = none := exec_free_of_no_preempt (s := { s with preempt := [] }) hfree rfl hbegin htick hwhole
    rw [← State.finalFb_of_free hafree, exec_finalFb (s := { s with preempt := [] }) hfree hbegin htick hwhole,
      State.accessesOf_withPreempt, exec_finalFb hfree hbegin htick hcut]
    exact (makeAccesses_fb_congr hsame _ 0).2
  refine ⟨?completes, fun n t hsteps htfree htin => ?same⟩
  case completes =>
    obtain ⟨n, t, hsteps, htfree, htin⟩ := exists_steps_complete (exec_inv hinv hfree hcut)
    exact ⟨n, t, hsteps, htfree, htin.trans hin⟩
  case same =>
    obtain ⟨-, hfb⟩ | hlt := steps_inputs_or_finalFb n hsteps
    · rw [State.finalFb_of_free htfree, ← hafb] at hfb
      exact State.fb_ext (congrFun hfb)
    · rw [htin, hin] at hlt
      exact absurd hlt (Nat.lt_irrefl _)

end Sys2Proof.Machine

/-! PROOFS. The panel as an observer of the events of a `TICK` (60_exceptions.md R147 to R150): what its shift registers hold, and what
it shows. -/

namespace Sys2Proof.Machine

/-! ## Watching events -/

theorem Panel.watch_append (q : Panel) (es fs : List Event) : q.watch (es ++ fs) = (q.watch es).watch fs :=
  List.foldl_append

theorem Panel.watch_cons (q : Panel) (e : Event) (es : List Event) : q.watch (e :: es) = (q.see e).watch es := rfl

/-- The panel's levels are the machine's pins, when they were before (60_exceptions.md R147). -/
theorem Panel.watch_pins (q : Panel) (es : List Event) : (q.watch es).pins = es.foldl Pins.apply q.pins := by
  induction es generalizing q with
  | nil => rfl
  | cons e es ih => exact ih (q.see e)

/-- The event is not a write of the shift clock. -/
def Event.IsClockless (e : Event) : Prop := ∀ b, e ≠ .clk b

theorem Panel.see_sr_of_clockless (q : Panel) {e : Event} (he : e.IsClockless) : (q.see e).sr = q.sr := by
  have hedge : risingEdge q.pins e = false := by
    cases e with
    | clk b => exact absurd rfl (he b)
    | blank | lat | addr | data | tmr | tmrStop => exact Bool.not_and_self _
  simp [Panel.see, hedge]

/-- Without the clock nothing is shifted (60_exceptions.md R147). -/
theorem Panel.watch_sr_of_clockless (q : Panel) {es : List Event} (hes : ∀ e ∈ es, e.IsClockless) : (q.watch es).sr = q.sr := by
  induction es generalizing q with
  | nil => rfl
  | cons e es ih =>
    rw [Panel.watch_cons, ih (q.see e) fun e' he' => hes e' (List.mem_cons_of_mem _ he')]
    exact q.see_sr_of_clockless (hes e List.mem_cons_self)

/-- One column: its value is shifted in on the rising edge, and the clock is low again (60_exceptions.md R147). -/
theorem Panel.watch_column (q : Panel) (hclk : q.pins.clk = false) (d : Lines) :
    (q.watch [.data d, .clk true, .clk false]).sr = shiftIn q.sr d ∧
      (q.watch [.data d, .clk true, .clk false]).pins.clk = false := by
  simp [Panel.watch, Panel.see, risingEdge, Pins.apply, hclk]

theorem length_shiftIn {sr : List Lines} (d : Lines) (h : 0 < sr.length) : (shiftIn sr d).length = sr.length := by
  rw [shiftIn, List.length_append, List.length_drop, List.length_singleton]
  omega

/-- Columns shifted in one after another push out as many stages (60_exceptions.md R147). -/
theorem Panel.watch_columns (line : Nat → Lines) (cols : List Nat) (q : Panel) (hclk : q.pins.clk = false)
    (hlen : 0 < q.sr.length) :
    (q.watch (cols.flatMap fun col => [.data (line col), .clk true, .clk false])).sr =
      (q.sr ++ cols.map line).drop cols.length := by
  induction cols generalizing q with
  | nil => simp [Panel.watch]
  | cons col cols ih =>
    obtain ⟨hsr, hlow⟩ := q.watch_column hclk (line col)
    rw [List.flatMap_cons, Panel.watch_append, ih _ hlow (by rw [hsr, length_shiftIn _ hlen]; exact hlen), hsr, shiftIn,
      List.length_cons, List.map_cons, Nat.add_comm, ← List.drop_drop, List.drop_append_of_le_length hlen,
      List.append_assoc, List.singleton_append]

/-! ## The shift registers after a `TICK` -/

/-- The events of steps 1 to 5, before the line. -/
def State.controlEvents (s : State) : List Event :=
  [.blank true, .lat true] ++ rowAddressEvents s.advanceCursor.plane s.advanceCursor.row ++
    [.tmr (BitVec.ofNat 16 (duration s.straps s.plane.toNat)), .blank false, .lat false]

theorem State.sweepEvents_eq_append (s : State) :
    s.sweepEvents = s.controlEvents ++
      lineEvents (s.sweep.fb s.sweep.fr) s.sweep.plane.toNat s.sweep.row.toNat := by
  rw [State.sweep_fb, State.sweep_fr, State.sweep_plane, State.sweep_row, State.sweepEvents, State.controlEvents,
    State.advanceCursor_fb]
  simp only [List.append_assoc]

theorem State.controlEvents_clockless (s : State) : ∀ e ∈ s.controlEvents, e.IsClockless := by
  intro e he b hclk
  subst hclk
  rw [State.controlEvents, rowAddressEvents] at he
  split at he <;> simp at he

theorem foldl_pins_clk_of_clockless (p : Pins) {es : List Event} (hes : ∀ e ∈ es, e.IsClockless) :
    (es.foldl Pins.apply p).clk = p.clk := by
  induction es generalizing p with
  | nil => rfl
  | cons e es ih =>
    rw [List.foldl_cons, ih _ fun e' he' => hes e' (List.mem_cons_of_mem _ he')]
    cases e with
    | clk b => exact absurd rfl (hes _ List.mem_cons_self b)
    | blank | lat | addr | data | tmr | tmrStop => rfl

/-- The line of a cursor in a state's front buffer (42_scan_sequencer.md R104). -/
def State.frontLine (s : State) : List Lines :=
  (List.range 32).map fun col => lineAt (s.fb s.fr) s.plane.toNat s.row.toNat col

theorem State.frontLine_getD (s : State) {px : Nat} (hpx : px < 32) :
    s.frontLine.getD px 0 = lineAt (s.fb s.fr) s.plane.toNat s.row.toNat px := by
  simp [State.frontLine, List.getD_eq_getElem?_getD, hpx]

/-- After the events of a `TICK` the thirty-two stages hold the thirty-two columns of the new cursor (60_exceptions.md R147). -/
theorem State.watch_sweepEvents_sr (s : State) (q : Panel) (hlen : q.sr.length = 32) (hclk : q.pins.clk = false) :
    (q.watch s.sweepEvents).sr = s.sweep.frontLine := by
  have hcontrol := q.watch_sr_of_clockless s.controlEvents_clockless
  have hlow : (q.watch s.controlEvents).pins.clk = false := by
    rw [Panel.watch_pins, foldl_pins_clk_of_clockless _ s.controlEvents_clockless, hclk]
  rw [State.sweepEvents_eq_append, Panel.watch_append, lineEvents, Panel.watch_columns _ _ _ hlow (by rw [hcontrol, hlen]; decide),
    hcontrol, List.length_range]
  exact List.drop_left' hlen

/-- Settles O53: the line is shifted in after the clock has idled low, and the levels are the pins. -/
theorem shiftRegistersHoldTheLine : Obligations.ShiftRegistersHoldTheLine := by
  unfold Obligations.ShiftRegistersHoldTheLine
  intro s q hinv hactive hpending hlen hpins
  have hrunning := hinv.running hactive
  refine ⟨s.sweep, s.sweepEvents, exec_tick_of_due hactive hpending hrunning.row_lt, s.sweep_out, ?_,
    s.watch_sweepEvents_sr q hlen (hpins ▸ hrunning.clk_low)⟩
  rw [Panel.watch_pins, hpins]
  exact s.sweep_followsBy.2.1.symm

/-! ## What is shown during a `TICK` -/

/-- The events of a `TICK` up to the enabling of the panel, without that event. -/
def State.darkEvents (s : State) : List Event :=
  [.blank true, .lat true] ++ rowAddressEvents s.advanceCursor.plane s.advanceCursor.row ++
    [.tmr (BitVec.ofNat 16 (duration s.straps s.plane.toNat))]

theorem State.sweepEvents_eq_dark (s : State) :
    s.sweepEvents = s.darkEvents ++ .blank false :: .lat false ::
      lineEvents (s.sweep.fb s.sweep.fr) s.sweep.plane.toNat s.sweep.row.toNat := by
  rw [State.sweepEvents_eq_append, State.controlEvents, State.darkEvents]
  simp only [List.append_assoc, List.cons_append, List.nil_append]

theorem State.blank_false_not_mem_darkEvents (s : State) : Event.blank false ∉ s.darkEvents := by
  rw [State.darkEvents, rowAddressEvents]
  split <;> simp

/-- A beginning of a list that reaches an event is all that comes before it, the event, and a beginning of the rest. -/
theorem exists_of_append_eq {head tail pre post : List Event} {e : Event} (h : head ++ e :: tail = pre ++ post) (hhead : e ∉ head)
    (hpre : e ∈ pre) : ∃ more, pre = head ++ e :: more ∧ more ++ post = tail := by
  obtain ⟨mid, rfl, hmid⟩ | ⟨mid, rfl, hmid⟩ := List.append_eq_append_iff.1 h
  · cases mid with
    | nil => exact absurd hpre (by simpa using hhead)
    | cons e' more =>
      obtain ⟨rfl, rfl⟩ := List.cons.inj hmid
      exact ⟨more, rfl, rfl⟩
  · exact absurd (List.mem_append_left _ hpre) hhead

/-- The panel shows the row `addr` from the output registers `line`, and its latch is closed. -/
structure Panel.Shows (line : List Lines) (addr : BitVec 4) (q : Panel) : Prop where
  outreg : q.outreg = line
  addr : q.pins.addr = addr
  lit : q.pins.blank = false

/-- While the latch is closed the columns of the next line do not reach the output (60_exceptions.md R148). -/
theorem Panel.Shows.watch_line {line : List Lines} {addr : BitVec 4} {q : Panel} (h : Panel.Shows line addr q)
    (hlat : q.pins.lat = false) {es : List Event} (hes : ∀ e ∈ es, (∃ d, e = .data d) ∨ ∃ b, e = .clk b) :
    Panel.Shows line addr (q.watch es) := by
  induction es generalizing q with
  | nil => exact h
  | cons e es ih =>
    have hrest : ∀ e ∈ es, (∃ d, e = .data d) ∨ ∃ b, e = .clk b := fun e' he' => hes e' (List.mem_cons_of_mem _ he')
    obtain ⟨d, rfl⟩ | ⟨b, rfl⟩ := hes e List.mem_cons_self
    · exact ih ⟨by simp [Panel.see, Pins.apply, hlat, h.outreg], h.addr, h.lit⟩ hlat hrest
    · exact ih ⟨by simp [Panel.see, Pins.apply, hlat, h.outreg], h.addr, h.lit⟩ hlat hrest

theorem mem_lineEvents {m : Memory} {plane row : Nat} {e : Event} (he : e ∈ lineEvents m plane row) :
    (∃ d, e = .data d) ∨ ∃ b, e = .clk b := by
  obtain ⟨col, -, he⟩ := List.mem_flatMap.1 he
  simp only [List.mem_cons, List.not_mem_nil, or_false] at he
  obtain rfl | rfl | rfl := he
  · exact .inl ⟨_, rfl⟩
  · exact .inr ⟨_, rfl⟩
  · exact .inr ⟨_, rfl⟩

/-- When the panel is enabled, step 1 has latched the stages and step 4 has selected the row (60_exceptions.md R148, R149). -/
theorem State.watch_enable (s : State) (q : Panel) :
    Panel.Shows q.sr (if s.advanceCursor.plane = 1 then s.advanceCursor.row else q.pins.addr)
      (q.watch (s.darkEvents ++ [.blank false])) := by
  rw [State.darkEvents, rowAddressEvents]
  split <;> constructor <;> simp [Panel.watch, Panel.see, risingEdge, Pins.apply]

/-- From the enabling on to the end of the tick the panel shows one line in one row. -/
theorem State.watch_shows (s : State) (q : Panel) {pre post : List Event} (hes : s.sweepEvents = pre ++ post)
    (hpre : Event.blank false ∈ pre) :
    Panel.Shows q.sr (if s.advanceCursor.plane = 1 then s.advanceCursor.row else q.pins.addr) (q.watch pre) := by
  rw [State.sweepEvents_eq_dark] at hes
  obtain ⟨more, rfl, hmore⟩ := exists_of_append_eq hes s.blank_false_not_mem_darkEvents hpre
  have henabled := s.watch_enable q
  rw [← List.singleton_append, ← List.append_assoc, Panel.watch_append]
  cases more with
  | nil => exact henabled
  | cons e more =>
    obtain ⟨rfl, hline⟩ := List.cons.inj hmore
    have hclosed : Panel.Shows q.sr (if s.advanceCursor.plane = 1 then s.advanceCursor.row else q.pins.addr)
        ((q.watch (s.darkEvents ++ [.blank false])).see (.lat false)) :=
      ⟨henabled.outreg, henabled.addr, henabled.lit⟩
    refine hclosed.watch_line rfl fun e he => ?_
    have hmem : e ∈ more ++ post := List.mem_append_left _ he
    exact mem_lineEvents ((congrArg (e ∈ ·) hline).mp hmem)

theorem rowCount_eq_two_pow (n : RowCount) : n.toNat = 2 ^ addrBits n := by
  cases n <;> rfl

/-- The LEDs of a panel that shows a line in a scan row: two physical rows carry the line's halves, all others are dark
(60_exceptions.md R149). -/
theorem Panel.Shows.lit_eq {n : RowCount} {line : List Lines} {addr : BitVec 4} {q : Panel} (h : Panel.Shows line addr q)
    (haddr : addr.toNat < n.toNat) (px py : Nat) (ch : Channel) :
    q.lit n px py ch =
      (decide (scanRowOf n py = addr.toNat) && (line.getD px 0).getLsbD (3 * (halfOf n py).num + ch.num)) := by
  have hselected : q.selected n = addr.toNat := by
    rw [Panel.selected, h.addr, ← rowCount_eq_two_pow, Nat.mod_eq_of_lt haddr]
  rw [Panel.lit, h.lit, hselected, h.outreg]
  by_cases htop : py < n.toNat
  · have hbottom : py ≠ addr.toNat + n.toNat := by omega
    simp only [scanRowOf, halfOf, if_pos htop, if_neg hbottom]
    by_cases hrow : py = addr.toNat <;> simp [hrow, HalfPanel.num]
  · have htop' : py ≠ addr.toNat := by omega
    have hrow : py = addr.toNat + n.toNat ↔ py - n.toNat = addr.toNat := by omega
    simp only [scanRowOf, halfOf, if_neg htop, if_neg htop', hrow]
    by_cases hrow : py - n.toNat = addr.toNat <;> simp [hrow, HalfPanel.num]

/-- A panel whose stages hold the line of the machine's cursor shows it through the next tick, from its `BLANK(0)` on: every LED of the
scan row is the bit stored for it (60_exceptions.md R150). -/
theorem State.lit_during_tick {s : State} {q : Panel} (hrow : s.row.toNat < s.nrows) (hsr : q.sr = s.frontLine)
    (haddr : s.plane ≠ 0 → q.pins.addr = s.row) {pre post : List Event} (hes : s.expire.sweepEvents = pre ++ post)
    (hpre : Event.blank false ∈ pre) {px : Nat} (hpx : px < 32) (py : Nat) (ch : Channel) :
    (q.watch pre).lit s.straps.nrows px py ch =
      (decide (scanRowOf s.straps.nrows py = s.row.toNat) &&
        (unpackChannel s.straps.nrows (s.fb s.fr) px py ch).getLsbD s.plane.toNat) := by
  have hselected : (if s.expire.advanceCursor.plane = 1 then s.expire.advanceCursor.row else q.pins.addr) = s.row := by
    split
    · rename_i hone
      exact State.advanceCursor_row_of_plane_one (s := s.expire) hrow hone
    · rename_i hone
      exact haddr fun hzero => hone ((State.advanceCursor_plane_eq_one_iff (s := s.expire) hrow).2 hzero)
  have hshows := s.expire.watch_shows q hes hpre
  rw [hselected, hsr] at hshows
  rw [hshows.lit_eq hrow, State.frontLine_getD _ hpx, getLsbD_lineAt, getLsbD_unpackChannel _ _ _ _ _ s.plane.isLt]
  by_cases hshown : scanRowOf s.straps.nrows py = s.row.toNat
  · rw [hshown]
  · rw [decide_eq_false hshown, Bool.false_and, Bool.false_and]

/-- An expiry makes the `TICK` due. -/
theorem exec_tick_after_expire {s : State} (hactive : s.active = true) (hrow : s.row.toNat < s.nrows) :
    exec .tick s.expire = .next s.expire.sweep :=
  exec_tick_of_due (s := s.expire) hactive rfl hrow

/-- Settles O54: the first tick shifts the line in, the second latches it, selects its row and enables the panel. -/
theorem panelShowsStoredPlane : Obligations.PanelShowsStoredPlane := by
  unfold Obligations.PanelShowsStoredPlane
  intro s0 q hinv hactive hpending hlen hpins
  have hrunning := hinv.running hactive
  have hactive1 : s0.sweep.active = true := s0.sweep_active.trans hactive
  have hrow1 : s0.sweep.row.toNat < s0.sweep.nrows := hrunning.sweep.row_lt
  refine ⟨s0.sweep, s0.sweep.expire.sweep, s0.sweepEvents, s0.sweep.expire.sweepEvents,
    exec_tick_of_due hactive hpending hrunning.row_lt, exec_tick_after_expire hactive1 hrow1, s0.sweep_out,
    s0.sweep.expire.sweep_out, fun pre post px py ch hes hpre hpx _ => ?_⟩
  have hwatched : (q.watch s0.sweepEvents).pins = s0.sweep.pins := by
    rw [Panel.watch_pins, hpins]
    exact s0.sweep_followsBy.2.1.symm
  have haddr : s0.sweep.plane ≠ 0 → (q.watch s0.sweepEvents).pins.addr = s0.sweep.row := fun hplane =>
    (congrArg Pins.addr hwatched).trans (hrunning.sweep_addr_row hplane)
  rw [← s0.sweep_straps]
  exact State.lit_during_tick hrow1 (s0.watch_sweepEvents_sr q hlen (hpins ▸ hrunning.clk_low)) haddr hes hpre hpx py ch

end Sys2Proof.Machine
